-- ==== Sys2Proof/Word.lean ====
section
/-! DEFINITION. The word, the 22-bit word address and its two parts (spec 00_scope.md R7, R8; 20_memory.md R70, R71). -/

namespace Sys2Proof

/-- The 16-bit word: the data unit of registers, memory and instructions (R7). -/
abbrev Word := BitVec 16

/-- A 22-bit address of one 16-bit word (R70). -/
abbrev Addr := BitVec 22

/-- A page number, the high 6 bits of an address (R71). -/
abbrev Page := BitVec 6

/-- The address of offset `o` in page `p`, the spec's `{p, o}` (R8, R71). -/
abbrev mkAddr (p : Page) (o : Word) : Addr := p ++ o

/-- Bits 21:16 of an address (R71). -/
abbrev pageOf (a : Addr) : Page := a.extractLsb' 16 6

/-- Bits 15:0 of an address (R71). -/
abbrev offsetOf (a : Addr) : Word := a.extractLsb' 0 16

end Sys2Proof
end

