-- ==== Sys2Proof/Config.lean ====
section
/-! DEFINITION. What an implementation fixes: the version and the other parameters of 00_scope.md R6, and the free
values the spec leaves open (93_implementation_defined.md U1). -/

namespace Sys2Proof

/-- The five versions of the core (R1, R2; parameter `VER` of R6). -/
inductive Version where
  | v10 | v11 | v12 | v13 | v20
  deriving DecidableEq, Repr

/-- The tag [1.2+] of the spec: 1.2, 1.3 and 2.0. -/
def Version.is12Plus : Version → Bool
  | .v10 => false
  | .v11 => false
  | .v12 => true
  | .v13 => true
  | .v20 => true

/-- Parameter `EXT_PREFIX` of R6: the value of Table 6.3 or the value of its note (b) (conflict C1). -/
inductive ExtPrefix where
  /-- 0xFFC0, the value C1 decides on. -/
  | table
  /-- 0xFF80, the note's value. -/
  | note
  deriving DecidableEq, Repr

/-- Parameter `EXT_POP_FIELD` of R6: how the 3-bit field of ext POP names the first register (R418, D24). -/
inductive ExtPopField where
  /-- `8 + ((field + 1) mod 8)`, the decided value. -/
  | minusOne
  /-- `8 + field`. -/
  | direct
  deriving DecidableEq, Repr

/-- Parameter `ALU_OP_MAP` of R6: the codes of the ten operations whose 4-bit value the source prints as `x` (R123). -/
structure AluOpMap where
  add : BitVec 4
  adc : BitVec 4
  sub : BitVec 4
  sbc : BitVec 4
  cmp : BitVec 4
  neg : BitVec 4
  xor : BitVec 4
  or : BitVec 4
  and : BitVec 4
  test : BitVec 4
  deriving DecidableEq, Repr

/-- The default of `ALU_OP_MAP`: the table of R123. PRESUMED (log 10): general knowledge, G3. -/
def AluOpMap.table : AluOpMap :=
  { add := 0#4, adc := 1#4, sub := 2#4, sbc := 3#4, cmp := 4#4, neg := 6#4, xor := 8#4, or := 10#4, and := 11#4,
    test := 12#4 }

/-- The ten codes. -/
def AluOpMap.codes (m : AluOpMap) : List (BitVec 4) :=
  [m.add, m.adc, m.sub, m.sbc, m.cmp, m.neg, m.xor, m.or, m.and, m.test]

/-- The codes of a map are ten different ones, and none is a code the source gives away: LOAD 1001, STORE 1101, and 1110
and 1111, which are no ALU_OP (R123). -/
def AluOpMap.valid (m : AluOpMap) : Bool :=
  decide m.codes.Nodup && m.codes.all (fun c => decide (c ∉ [9#4, 13#4, 14#4, 15#4]))

/-- Parameter `ENC_10_11` of R6: the bit positions of [1.0] and [1.1], which the source lost (D12; log 14). -/
inductive Enc1011 where
  /-- The default: the encodings and the SR layout of 1.2. -/
  | as12
  /-- Any other: `Config.enc1011` and `Config.sr1011`. -/
  | other
  deriving DecidableEq, Repr

/-- What stands behind a word address (parameter `MEMMAP` of R6; R100, D19). -/
inductive Backing where
  /-- Memory that reads as last written. -/
  | ram
  /-- Memory that ignores writes. -/
  | rom
  /-- No memory: reads give this word, writes have no effect. -/
  | unbacked (reads : BitVec 16)
  /-- A device, which answers reads by `Config.deviceRead`. -/
  | device
  deriving DecidableEq, Repr

/-- A run of addresses of the memory map, both ends in it. -/
structure Region where
  first : Addr
  last : Addr
  kind : Backing
  deriving DecidableEq, Repr

/-- One access a device sees (R113). -/
inductive DeviceAccess where
  | read (a : Addr)
  | write (a : Addr) (v : Word)
  /-- A byte store of [1.3]; bit 0 of the byte address says which byte (R96). -/
  | writeByte (eba : BitVec 23) (v : BitVec 8)
  deriving DecidableEq, Repr

/-- The parameters of R6 that shape behaviour. `DATA_WIDTH` and `ADDR_WIDTH` are fixed (Word.lean); `PM`, `DM` and
`MUL_ONE_CYCLE` are timing only; `IMDM_SHARED = false` is out of scope (R5 (d)); `DECODE_13`, `EBA_BP` and `EBA_I` are
functions without a body (Decode.lean, Operands.lean). -/
structure Params where
  /-- `VER`. -/
  ver : Version
  /-- `TEST[1:0]`, which selects the vector table in [1.2+] (R463, R464). -/
  test : BitVec 2
  /-- `INT_BASE[9:0]`, part of every vector address in [1.3] (R464). -/
  intBase : BitVec 10
  /-- `EXT_PREFIX`. -/
  extPrefix : ExtPrefix
  /-- `EXT_POP_FIELD`. -/
  extPop : ExtPopField
  /-- `STORE_A16_W`: the W bit of the STORE form `[A16] = Rd` (R171, D33). -/
  storeW : Bool
  /-- `ALU_OP_MAP`; a map that is not `valid` stands for the default (`Params.aluCodes`). -/
  aluOps : AluOpMap
  /-- `ENC_10_11`. -/
  enc1011 : Enc1011
  /-- `MEMMAP`: the first region an address lies in says what backs it; outside all of them it is RAM (log 6). -/
  memmap : List Region
  deriving DecidableEq, Repr

/-- The parameter values of `State.reset`. DESIGN CHOICE (log 1): version 2.0, whose table has a row for every
mnemonic; TEST = 00 and INT_BASE = 0x3FF, the values of the spec's examples; the decided values of C1, D24, D33 (log 17);
the defaults of ALU_OP_MAP and ENC_10_11; RAM at every address (log 6). -/
def Params.default : Params :=
  { ver := .v20, test := 0, intBase := 0x3FF, extPrefix := .table, extPop := .minusOne, storeW := false,
    aluOps := AluOpMap.table, enc1011 := .as12, memmap := [] }

/-- What backs an address (R100). -/
def Params.backing (p : Params) (a : Addr) : Backing :=
  match p.memmap.find? (fun r => decide (r.first ≤ a) && decide (a ≤ r.last)) with
  | some r => r.kind
  | none => .ram

/-- The map of the ALU operations in force (R123; log 10). -/
def Params.aluCodes (p : Params) : AluOpMap := if p.aluOps.valid then p.aluOps else AluOpMap.table

/-- Whether the bit positions are those the source lost: [1.0] and [1.1] with `ENC_10_11` other than the default. -/
def Params.lostLayout (p : Params) : Bool := !p.ver.is12Plus && decide (p.enc1011 = .other)

/-- `ENC_10_11` where it is not the default: a first word of [1.0] or [1.1] as the 1.2 word with the same fields. No
source gives it (D12; log 14). -/
opaque Config.enc1011 : Version → Word → Word

/-- `ENC_10_11` where it is not the default: the word of SR in [1.0] or [1.1], from the word of the 1.2 layout and back.
No source gives it (D12; log 14). -/
opaque Config.sr1011 : Version → Word ≃ Word

/-- The first word of an instruction as the tables of 1.2 number its fields (R121, D12). -/
def Params.firstWord (p : Params) (w : Word) : Word := if p.lostLayout then Config.enc1011 p.ver w else w

/-- What a device answers to a read at an address, after the accesses it has seen, the last one first. The spec describes
no device (R113; log 6). -/
opaque Config.deviceRead : List DeviceAccess → Addr → Word

/-- The free value of U1: the shift buffer in use after MUL (all versions) and after the MULS of 1.0 and 1.1, which
"is unknown" (R36, R260, R267). Applied to a counter, so that each draw may differ (log 28). -/
opaque Config.freeShiftBuffer : Nat → BitVec 4

end Sys2Proof
end

