-- ==== Sys2Proof/Syntax.lean ====
section
/-! DEFINITION. The instructions as syntax: registers, operand names, `Instr` (one constructor per row of
spec/opcode_table.json; the two CALL rows, which differ in a don't-care bit of the version, are one instruction) and
`Instr13`, the instructions only unSP 1.3 has, which the table does not list (30_encoding.md R139). -/

namespace Sys2Proof

/-- The eight core registers by number 0 to 7 (R20). -/
inductive Reg where
  | sp | r1 | r2 | r3 | r4 | bp | sr | pc
  deriving DecidableEq, Repr

/-- The extend registers R8 to R15 of [2.0] (R44). -/
inductive XReg where
  | r8 | r9 | r10 | r11 | r12 | r13 | r14 | r15
  deriving DecidableEq, Repr

/-- A 4-bit register number 0 to 15: a core or an extend register (R411). -/
inductive GReg where
  | core (r : Reg)
  | ext (x : XReg)
  deriving DecidableEq, Repr

/-- R1 to R4: the pointer registers of the byte modes of [1.3] (R50 (e), R381). -/
inductive PairReg where
  | p1 | p2 | p3 | p4
  deriving DecidableEq, Repr

/-- The @ field of `[Rs@]` (R87, R128). -/
inductive PtrMode where
  /-- `[Rs]`, no change. -/
  | keep
  /-- `[Rs--]`, after the access. -/
  | postDec
  /-- `[Rs++]`, after the access. -/
  | postInc
  /-- `[++Rs]`, before the access. -/
  | preInc
  deriving DecidableEq, Repr

/-- The operations of the ALU rows, LOAD among them (R123, R200; STORE has rows of its own). -/
inductive AluOp where
  | add | adc | sub | sbc | cmp | neg | xor | load | or | and | test
  deriving DecidableEq, Repr

/-- The shift types of the 4-bit shifter (R127). -/
inductive Shift4 where
  | asr | lsl | lsr | rol | ror
  deriving DecidableEq, Repr

/-- The 16-bit shift types LSFT (R240). -/
inductive Shift16 where
  | asr | asrOr | lsl | lslOr | lsr | lsrOr | rol | ror
  deriving DecidableEq, Repr

/-- The bit operations TSTB, SETB, CLRB, INVB (R291). -/
inductive BitOp where
  | tst | set | clr | inv
  deriving DecidableEq, Repr

/-- Signedness of MUL and MULS: `us` is Rd unsigned, Rs signed (R132, R260). -/
inductive MulKind where
  | uu | us | ss
  deriving DecidableEq, Repr

/-- The branch conditions by COND code (R135). -/
inductive Cond where
  | cc | cs | sc | ss | ne | z | pl | mi | be | nbe | le | nle | vc | vs | always
  deriving DecidableEq, Repr

/-- Access width of the byte modes of [1.3]: `B:` or `W:` (R92). -/
inductive Width where
  | byte | word
  deriving DecidableEq, Repr

/-- The instructions of spec/opcode_table.json. Each docstring names the row's mnemonic and format, and the rules. In
the forms with an unused register field (LOAD and NEG with IM16 or [A16], CMP and TEST, STORE [A16]) the field is kept,
so that no bit of the row is dropped. `w` is the W bit of the [A16] rows, `k` the shift of the shifted-register rows: rows
that differ in one field alone, one row in the source (R125), share a constructor (log 53). `nn` holds the shift count minus 1 (R127); `n` of MULS holds the field, 0 for 16
(R261); `back` is the direction bit of a branch (R134). -/
inductive Instr where
  /-- JCC BRANCH (R336, R335). -/
  | jcc (back : Bool) (im : BitVec 6)
  /-- JCS BRANCH (R337, R335). -/
  | jcs (back : Bool) (im : BitVec 6)
  /-- JSC BRANCH (R338, R335). -/
  | jsc (back : Bool) (im : BitVec 6)
  /-- JSS BRANCH (R339, R335). -/
  | jss (back : Bool) (im : BitVec 6)
  /-- JNE BRANCH (R340, R335). -/
  | jne (back : Bool) (im : BitVec 6)
  /-- JZ BRANCH (R341, R335). -/
  | jz (back : Bool) (im : BitVec 6)
  /-- JPL BRANCH (R342, R335). -/
  | jpl (back : Bool) (im : BitVec 6)
  /-- JMI BRANCH (R343, R335). -/
  | jmi (back : Bool) (im : BitVec 6)
  /-- JBE BRANCH (R344, R335). -/
  | jbe (back : Bool) (im : BitVec 6)
  /-- JNBE BRANCH (R345, R335). -/
  | jnbe (back : Bool) (im : BitVec 6)
  /-- JLE BRANCH (R346, R335). -/
  | jle (back : Bool) (im : BitVec 6)
  /-- JNLE BRANCH (R347, R335). -/
  | jnle (back : Bool) (im : BitVec 6)
  /-- JVC BRANCH (R348, R335). -/
  | jvc (back : Bool) (im : BitVec 6)
  /-- JVS BRANCH (R349, R335). -/
  | jvs (back : Bool) (im : BitVec 6)
  /-- JMP BRANCH (R350, R335). -/
  | jmp (back : Bool) (im : BitVec 6)
  /-- DS_IM6 SEG (R310). -/
  | dsIm6 (im : BitVec 6)
  /-- GOTO A22 (R352). -/
  | goto (hi : Page) (lo : Word)
  /-- EXT_PREFIX PREFIX (R410). -/
  | extPrefix (e : Word)
  /-- TSTB BITOP_A16_OFFSET (R292, R297). -/
  | tstbA16 (d : Bool) (off : BitVec 4) (a : Word)
  /-- SETB BITOP_A16_OFFSET (R293, R297). -/
  | setbA16 (d : Bool) (off : BitVec 4) (a : Word)
  /-- CLRB BITOP_A16_OFFSET (R294, R297). -/
  | clrbA16 (d : Bool) (off : BitVec 4) (a : Word)
  /-- INVB BITOP_A16_OFFSET (R295, R297). -/
  | invbA16 (d : Bool) (off : BitVec 4) (a : Word)
  /-- ADD BP_IM6 (R203, R83). -/
  | addBpIm6 (rd : Reg) (im : BitVec 6)
  /-- ADD IM6 (R203, R81). -/
  | addIm6 (rd : Reg) (im : BitVec 6)
  /-- ADD DS_INDIRECT (R203, R86, R87). -/
  | addInd (rd : Reg) (d : Bool) (m : PtrMode) (rs : Reg)
  /-- ADD REGISTER (R203, R88). -/
  | addReg (rd : Reg) (rs : Reg)
  /-- ADD IM16 (R203, R82). -/
  | addIm16 (rd : Reg) (rs : Reg) (im : Word)
  /-- ADD A16_W0, A16_W1 (R203, R85, R219). -/
  | addA16 (w : Bool) (rd : Reg) (rs : Reg) (a : Word)
  /-- ADD REGISTER_ASR, _LSL, _LSR, _ROL, _ROR (R203, R213 to R218). -/
  | addShift (k : Shift4) (rd : Reg) (nn : BitVec 2) (rs : Reg)
  /-- ADD A6 (R203, R84). -/
  | addA6 (rd : Reg) (a : BitVec 6)
  /-- ADC BP_IM6 (R204, R83). -/
  | adcBpIm6 (rd : Reg) (im : BitVec 6)
  /-- ADC IM6 (R204, R81). -/
  | adcIm6 (rd : Reg) (im : BitVec 6)
  /-- ADC DS_INDIRECT (R204, R86, R87). -/
  | adcInd (rd : Reg) (d : Bool) (m : PtrMode) (rs : Reg)
  /-- ADC REGISTER (R204, R88). -/
  | adcReg (rd : Reg) (rs : Reg)
  /-- ADC IM16 (R204, R82). -/
  | adcIm16 (rd : Reg) (rs : Reg) (im : Word)
  /-- ADC A16_W0, A16_W1 (R204, R85, R219). -/
  | adcA16 (w : Bool) (rd : Reg) (rs : Reg) (a : Word)
  /-- ADC REGISTER_ASR, _LSL, _LSR, _ROL, _ROR (R204, R213 to R218). -/
  | adcShift (k : Shift4) (rd : Reg) (nn : BitVec 2) (rs : Reg)
  /-- ADC A6 (R204, R84). -/
  | adcA6 (rd : Reg) (a : BitVec 6)
  /-- SUB BP_IM6 (R205, R83). -/
  | subBpIm6 (rd : Reg) (im : BitVec 6)
  /-- SUB IM6 (R205, R81). -/
  | subIm6 (rd : Reg) (im : BitVec 6)
  /-- SUB DS_INDIRECT (R205, R86, R87). -/
  | subInd (rd : Reg) (d : Bool) (m : PtrMode) (rs : Reg)
  /-- SUB REGISTER (R205, R88). -/
  | subReg (rd : Reg) (rs : Reg)
  /-- SUB IM16 (R205, R82). -/
  | subIm16 (rd : Reg) (rs : Reg) (im : Word)
  /-- SUB A16_W0, A16_W1 (R205, R85, R219). -/
  | subA16 (w : Bool) (rd : Reg) (rs : Reg) (a : Word)
  /-- SUB REGISTER_ASR, _LSL, _LSR, _ROL, _ROR (R205, R213 to R218). -/
  | subShift (k : Shift4) (rd : Reg) (nn : BitVec 2) (rs : Reg)
  /-- SUB A6 (R205, R84). -/
  | subA6 (rd : Reg) (a : BitVec 6)
  /-- SBC BP_IM6 (R206, R83). -/
  | sbcBpIm6 (rd : Reg) (im : BitVec 6)
  /-- SBC IM6 (R206, R81). -/
  | sbcIm6 (rd : Reg) (im : BitVec 6)
  /-- SBC DS_INDIRECT (R206, R86, R87). -/
  | sbcInd (rd : Reg) (d : Bool) (m : PtrMode) (rs : Reg)
  /-- SBC REGISTER (R206, R88). -/
  | sbcReg (rd : Reg) (rs : Reg)
  /-- SBC IM16 (R206, R82). -/
  | sbcIm16 (rd : Reg) (rs : Reg) (im : Word)
  /-- SBC A16_W0, A16_W1 (R206, R85, R219). -/
  | sbcA16 (w : Bool) (rd : Reg) (rs : Reg) (a : Word)
  /-- SBC REGISTER_ASR, _LSL, _LSR, _ROL, _ROR (R206, R213 to R218). -/
  | sbcShift (k : Shift4) (rd : Reg) (nn : BitVec 2) (rs : Reg)
  /-- SBC A6 (R206, R84). -/
  | sbcA6 (rd : Reg) (a : BitVec 6)
  /-- CMP BP_IM6 (R208, R83). -/
  | cmpBpIm6 (rd : Reg) (im : BitVec 6)
  /-- CMP IM6 (R208, R81). -/
  | cmpIm6 (rd : Reg) (im : BitVec 6)
  /-- CMP DS_INDIRECT (R208, R86, R87). -/
  | cmpInd (rd : Reg) (d : Bool) (m : PtrMode) (rs : Reg)
  /-- CMP REGISTER (R208, R88). -/
  | cmpReg (rd : Reg) (rs : Reg)
  /-- CMP IM16 (R208, R82). -/
  | cmpIm16 (rd : Reg) (rs : Reg) (im : Word)
  /-- CMP A16_W0, A16_W1 (R208, R85, R219). -/
  | cmpA16 (w : Bool) (rd : Reg) (rs : Reg) (a : Word)
  /-- CMP REGISTER_ASR, _LSL, _LSR, _ROL, _ROR (R208, R213 to R218). -/
  | cmpShift (k : Shift4) (rd : Reg) (nn : BitVec 2) (rs : Reg)
  /-- CMP A6 (R208, R84). -/
  | cmpA6 (rd : Reg) (a : BitVec 6)
  /-- NEG BP_IM6 (R207, R83). -/
  | negBpIm6 (rd : Reg) (im : BitVec 6)
  /-- NEG IM6 (R207, R81). -/
  | negIm6 (rd : Reg) (im : BitVec 6)
  /-- NEG DS_INDIRECT (R207, R86, R87). -/
  | negInd (rd : Reg) (d : Bool) (m : PtrMode) (rs : Reg)
  /-- NEG REGISTER (R207, R88). -/
  | negReg (rd : Reg) (rs : Reg)
  /-- NEG IM16 (R207, R82). -/
  | negIm16 (rd : Reg) (rs : Reg) (im : Word)
  /-- NEG A16_W0, A16_W1 (R207, R85, R219). -/
  | negA16 (w : Bool) (rd : Reg) (rs : Reg) (a : Word)
  /-- NEG REGISTER_ASR, _LSL, _LSR, _ROL, _ROR (R207, R213 to R218). -/
  | negShift (k : Shift4) (rd : Reg) (nn : BitVec 2) (rs : Reg)
  /-- NEG A6 (R207, R84). -/
  | negA6 (rd : Reg) (a : BitVec 6)
  /-- XOR BP_IM6 (R211, R83). -/
  | xorBpIm6 (rd : Reg) (im : BitVec 6)
  /-- XOR IM6 (R211, R81). -/
  | xorIm6 (rd : Reg) (im : BitVec 6)
  /-- XOR DS_INDIRECT (R211, R86, R87). -/
  | xorInd (rd : Reg) (d : Bool) (m : PtrMode) (rs : Reg)
  /-- XOR REGISTER (R211, R88). -/
  | xorReg (rd : Reg) (rs : Reg)
  /-- XOR IM16 (R211, R82). -/
  | xorIm16 (rd : Reg) (rs : Reg) (im : Word)
  /-- XOR A16_W0, A16_W1 (R211, R85, R219). -/
  | xorA16 (w : Bool) (rd : Reg) (rs : Reg) (a : Word)
  /-- XOR REGISTER_ASR, _LSL, _LSR, _ROL, _ROR (R211, R213 to R218). -/
  | xorShift (k : Shift4) (rd : Reg) (nn : BitVec 2) (rs : Reg)
  /-- XOR A6 (R211, R84). -/
  | xorA6 (rd : Reg) (a : BitVec 6)
  /-- LOAD BP_IM6 (R170, R83). -/
  | loadBpIm6 (rd : Reg) (im : BitVec 6)
  /-- LOAD IM6 (R170, R81). -/
  | loadIm6 (rd : Reg) (im : BitVec 6)
  /-- LOAD DS_INDIRECT (R170, R86, R87). -/
  | loadInd (rd : Reg) (d : Bool) (m : PtrMode) (rs : Reg)
  /-- LOAD REGISTER (R170, R88). -/
  | loadReg (rd : Reg) (rs : Reg)
  /-- LOAD IM16 (R170, R82). -/
  | loadIm16 (rd : Reg) (rs : Reg) (im : Word)
  /-- LOAD A16_W0 (R170, R85). -/
  | loadA16 (rd : Reg) (rs : Reg) (a : Word)
  /-- LOAD REGISTER_ASR, _LSL, _LSR, _ROL, _ROR (R170, R213 to R218). -/
  | loadShift (k : Shift4) (rd : Reg) (nn : BitVec 2) (rs : Reg)
  /-- LOAD A6 (R170, R84). -/
  | loadA6 (rd : Reg) (a : BitVec 6)
  /-- OR BP_IM6 (R210, R83). -/
  | orBpIm6 (rd : Reg) (im : BitVec 6)
  /-- OR IM6 (R210, R81). -/
  | orIm6 (rd : Reg) (im : BitVec 6)
  /-- OR DS_INDIRECT (R210, R86, R87). -/
  | orInd (rd : Reg) (d : Bool) (m : PtrMode) (rs : Reg)
  /-- OR REGISTER (R210, R88). -/
  | orReg (rd : Reg) (rs : Reg)
  /-- OR IM16 (R210, R82). -/
  | orIm16 (rd : Reg) (rs : Reg) (im : Word)
  /-- OR A16_W0, A16_W1 (R210, R85, R219). -/
  | orA16 (w : Bool) (rd : Reg) (rs : Reg) (a : Word)
  /-- OR REGISTER_ASR, _LSL, _LSR, _ROL, _ROR (R210, R213 to R218). -/
  | orShift (k : Shift4) (rd : Reg) (nn : BitVec 2) (rs : Reg)
  /-- OR A6 (R210, R84). -/
  | orA6 (rd : Reg) (a : BitVec 6)
  /-- AND BP_IM6 (R209, R83). -/
  | andBpIm6 (rd : Reg) (im : BitVec 6)
  /-- AND IM6 (R209, R81). -/
  | andIm6 (rd : Reg) (im : BitVec 6)
  /-- AND DS_INDIRECT (R209, R86, R87). -/
  | andInd (rd : Reg) (d : Bool) (m : PtrMode) (rs : Reg)
  /-- AND REGISTER (R209, R88). -/
  | andReg (rd : Reg) (rs : Reg)
  /-- AND IM16 (R209, R82). -/
  | andIm16 (rd : Reg) (rs : Reg) (im : Word)
  /-- AND A16_W0, A16_W1 (R209, R85, R219). -/
  | andA16 (w : Bool) (rd : Reg) (rs : Reg) (a : Word)
  /-- AND REGISTER_ASR, _LSL, _LSR, _ROL, _ROR (R209, R213 to R218). -/
  | andShift (k : Shift4) (rd : Reg) (nn : BitVec 2) (rs : Reg)
  /-- AND A6 (R209, R84). -/
  | andA6 (rd : Reg) (a : BitVec 6)
  /-- TEST BP_IM6 (R212, R83). -/
  | testBpIm6 (rd : Reg) (im : BitVec 6)
  /-- TEST IM6 (R212, R81). -/
  | testIm6 (rd : Reg) (im : BitVec 6)
  /-- TEST DS_INDIRECT (R212, R86, R87). -/
  | testInd (rd : Reg) (d : Bool) (m : PtrMode) (rs : Reg)
  /-- TEST REGISTER (R212, R88). -/
  | testReg (rd : Reg) (rs : Reg)
  /-- TEST IM16 (R212, R82). -/
  | testIm16 (rd : Reg) (rs : Reg) (im : Word)
  /-- TEST A16_W0, A16_W1 (R212, R85, R219). -/
  | testA16 (w : Bool) (rd : Reg) (rs : Reg) (a : Word)
  /-- TEST REGISTER_ASR, _LSL, _LSR, _ROL, _ROR (R212, R213 to R218). -/
  | testShift (k : Shift4) (rd : Reg) (nn : BitVec 2) (rs : Reg)
  /-- TEST A6 (R212, R84). -/
  | testA6 (rd : Reg) (a : BitVec 6)
  /-- STORE BP_IM6 (R171, R83). -/
  | storeBpIm6 (rd : Reg) (im : BitVec 6)
  /-- STORE DS_INDIRECT (R171, R86, R87). -/
  | storeInd (rd : Reg) (d : Bool) (m : PtrMode) (rs : Reg)
  /-- STORE A16_W0 (R171, R85). -/
  | storeA16 (rd : Reg) (rs : Reg) (a : Word)
  /-- STORE A6 (R171, R84). -/
  | storeA6 (rd : Reg) (a : BitVec 6)
  /-- PUSH MULTI_INDIRECT (R172). -/
  | push (rd : Reg) (n : BitVec 3) (rs : Reg)
  /-- POP MULTI_INDIRECT (R173). -/
  | pop (rd : Reg) (n : BitVec 3) (rs : Reg)
  /-- TSTB BITOP_REG_REG (R292, R290). -/
  | tstbRegReg (rd : Reg) (rs : Reg)
  /-- TSTB BITOP_REG_OFFSET (R292, R290). -/
  | tstbRegOff (rd : Reg) (off : BitVec 4)
  /-- TSTB BITOP_MEM_REG (R292, R296). -/
  | tstbMemReg (rd : Reg) (d : Bool) (rs : Reg)
  /-- TSTB BITOP_MEM_OFFSET (R292, R296). -/
  | tstbMemOff (rd : Reg) (d : Bool) (off : BitVec 4)
  /-- SETB BITOP_REG_REG (R293, R290). -/
  | setbRegReg (rd : Reg) (rs : Reg)
  /-- SETB BITOP_REG_OFFSET (R293, R290). -/
  | setbRegOff (rd : Reg) (off : BitVec 4)
  /-- SETB BITOP_MEM_REG (R293, R296). -/
  | setbMemReg (rd : Reg) (d : Bool) (rs : Reg)
  /-- SETB BITOP_MEM_OFFSET (R293, R296). -/
  | setbMemOff (rd : Reg) (d : Bool) (off : BitVec 4)
  /-- CLRB BITOP_REG_REG (R294, R290). -/
  | clrbRegReg (rd : Reg) (rs : Reg)
  /-- CLRB BITOP_REG_OFFSET (R294, R290). -/
  | clrbRegOff (rd : Reg) (off : BitVec 4)
  /-- CLRB BITOP_MEM_REG (R294, R296). -/
  | clrbMemReg (rd : Reg) (d : Bool) (rs : Reg)
  /-- CLRB BITOP_MEM_OFFSET (R294, R296). -/
  | clrbMemOff (rd : Reg) (d : Bool) (off : BitVec 4)
  /-- INVB BITOP_REG_REG (R295, R290). -/
  | invbRegReg (rd : Reg) (rs : Reg)
  /-- INVB BITOP_REG_OFFSET (R295, R290). -/
  | invbRegOff (rd : Reg) (off : BitVec 4)
  /-- INVB BITOP_MEM_REG (R295, R296). -/
  | invbMemReg (rd : Reg) (d : Bool) (rs : Reg)
  /-- INVB BITOP_MEM_OFFSET (R295, R296). -/
  | invbMemOff (rd : Reg) (d : Bool) (off : BitVec 4)
  /-- ASR16 SHIFT16 (R243, R241). -/
  | asr16 (rd : Reg) (rs : Reg)
  /-- ASROR16 SHIFT16 (R246, R241). -/
  | asrOr16 (rd : Reg) (rs : Reg)
  /-- LSL16 SHIFT16 (R244, R241). -/
  | lsl16 (rd : Reg) (rs : Reg)
  /-- LSLOR16 SHIFT16 (R246, R241). -/
  | lslOr16 (rd : Reg) (rs : Reg)
  /-- LSR16 SHIFT16 (R245, R241). -/
  | lsr16 (rd : Reg) (rs : Reg)
  /-- LSROR16 SHIFT16 (R246, R241). -/
  | lsrOr16 (rd : Reg) (rs : Reg)
  /-- ROL16 SHIFT16 (R248, R241). -/
  | rol16 (rd : Reg) (rs : Reg)
  /-- ROR16 SHIFT16 (R249, R241). -/
  | ror16 (rd : Reg) (rs : Reg)
  /-- MUL.uu MUL (R260). -/
  | mulUu (rd : Reg) (rs : Reg)
  /-- MUL.us MUL (R260). -/
  | mulUs (rd : Reg) (rs : Reg)
  /-- MUL.ss MUL (R260). -/
  | mulSs (rd : Reg) (rs : Reg)
  /-- MULS.uu MULS (R267). -/
  | mulsUu (rd : Reg) (n : BitVec 4) (rs : Reg)
  /-- MULS.us MULS (R267). -/
  | mulsUs (rd : Reg) (n : BitVec 4) (rs : Reg)
  /-- MULS.ss MULS (R267). -/
  | mulsSs (rd : Reg) (n : BitVec 4) (rs : Reg)
  /-- INT MODE (R364). -/
  | int (f : Bool) (i : Bool)
  /-- FIR_MOV MODE (R361). -/
  | firMov (off : Bool)
  /-- FRACTION MODE (R366). -/
  | fraction (on : Bool)
  /-- IRQ MODE (R363). -/
  | irq (on : Bool)
  /-- SECBANK MODE (R365). -/
  | secbank (on : Bool)
  /-- FIQ MODE (R362). -/
  | fiq (on : Bool)
  /-- IRQNEST MODE (R367). -/
  | irqnest (on : Bool)
  /-- RS_EQ_DS SEG_ACCESS (R311). -/
  | rsEqDs (rs : Reg)
  /-- DS_EQ_RS SEG_ACCESS (R312). -/
  | dsEqRs (rs : Reg)
  /-- RS_EQ_FR FR_ACCESS (R313). -/
  | rsEqFr (rs : Reg)
  /-- FR_EQ_RS FR_ACCESS (R314). -/
  | frEqRs (rs : Reg)
  /-- CALL A22 (R331). -/
  | call (hi : Page) (lo : Word)
  /-- EXT.ADD EXT_REGISTER (R420, R412). -/
  | extAddReg (ra : GReg) (rb : GReg)
  /-- EXT.ADD EXT_IMM16 (R420, R412). -/
  | extAddIm16 (ra : GReg) (rb : GReg) (im : Word)
  /-- EXT.ADD EXT_A16_W0, EXT_A16_W1 (R420, R412, R219). -/
  | extAddA16 (w : Bool) (ra : GReg) (rb : GReg) (a : Word)
  /-- EXT.ADD EXT_DS_INDIRECT (R420, R413). -/
  | extAddInd (rx : XReg) (d : Bool) (m : PtrMode) (ry : XReg)
  /-- EXT.ADD EXT_IM6 (R420, R412). -/
  | extAddIm6 (rx : XReg) (im : BitVec 6)
  /-- EXT.ADD EXT_BASE_DISP6 (R420, R412). -/
  | extAddBpIm6 (rx : XReg) (im : BitVec 6)
  /-- EXT.ADD EXT_A6 (R420, R412). -/
  | extAddA6 (rx : XReg) (a : BitVec 6)
  /-- EXT.ADC EXT_REGISTER (R421, R412). -/
  | extAdcReg (ra : GReg) (rb : GReg)
  /-- EXT.ADC EXT_IMM16 (R421, R412). -/
  | extAdcIm16 (ra : GReg) (rb : GReg) (im : Word)
  /-- EXT.ADC EXT_A16_W0, EXT_A16_W1 (R421, R412, R219). -/
  | extAdcA16 (w : Bool) (ra : GReg) (rb : GReg) (a : Word)
  /-- EXT.ADC EXT_DS_INDIRECT (R421, R413). -/
  | extAdcInd (rx : XReg) (d : Bool) (m : PtrMode) (ry : XReg)
  /-- EXT.ADC EXT_IM6 (R421, R412). -/
  | extAdcIm6 (rx : XReg) (im : BitVec 6)
  /-- EXT.ADC EXT_BASE_DISP6 (R421, R412). -/
  | extAdcBpIm6 (rx : XReg) (im : BitVec 6)
  /-- EXT.ADC EXT_A6 (R421, R412). -/
  | extAdcA6 (rx : XReg) (a : BitVec 6)
  /-- EXT.SUB EXT_REGISTER (R422, R412). -/
  | extSubReg (ra : GReg) (rb : GReg)
  /-- EXT.SUB EXT_IMM16 (R422, R412). -/
  | extSubIm16 (ra : GReg) (rb : GReg) (im : Word)
  /-- EXT.SUB EXT_A16_W0, EXT_A16_W1 (R422, R412, R219). -/
  | extSubA16 (w : Bool) (ra : GReg) (rb : GReg) (a : Word)
  /-- EXT.SUB EXT_DS_INDIRECT (R422, R413). -/
  | extSubInd (rx : XReg) (d : Bool) (m : PtrMode) (ry : XReg)
  /-- EXT.SUB EXT_IM6 (R422, R412). -/
  | extSubIm6 (rx : XReg) (im : BitVec 6)
  /-- EXT.SUB EXT_BASE_DISP6 (R422, R412). -/
  | extSubBpIm6 (rx : XReg) (im : BitVec 6)
  /-- EXT.SUB EXT_A6 (R422, R412). -/
  | extSubA6 (rx : XReg) (a : BitVec 6)
  /-- EXT.SBC EXT_REGISTER (R423, R412). -/
  | extSbcReg (ra : GReg) (rb : GReg)
  /-- EXT.SBC EXT_IMM16 (R423, R412). -/
  | extSbcIm16 (ra : GReg) (rb : GReg) (im : Word)
  /-- EXT.SBC EXT_A16_W0, EXT_A16_W1 (R423, R412, R219). -/
  | extSbcA16 (w : Bool) (ra : GReg) (rb : GReg) (a : Word)
  /-- EXT.SBC EXT_DS_INDIRECT (R423, R413). -/
  | extSbcInd (rx : XReg) (d : Bool) (m : PtrMode) (ry : XReg)
  /-- EXT.SBC EXT_IM6 (R423, R412). -/
  | extSbcIm6 (rx : XReg) (im : BitVec 6)
  /-- EXT.SBC EXT_BASE_DISP6 (R423, R412). -/
  | extSbcBpIm6 (rx : XReg) (im : BitVec 6)
  /-- EXT.SBC EXT_A6 (R423, R412). -/
  | extSbcA6 (rx : XReg) (a : BitVec 6)
  /-- EXT.CMP EXT_REGISTER (R425, R412). -/
  | extCmpReg (ra : GReg) (rb : GReg)
  /-- EXT.CMP EXT_IMM16 (R425, R412). -/
  | extCmpIm16 (ra : GReg) (rb : GReg) (im : Word)
  /-- EXT.CMP EXT_A16_W0, EXT_A16_W1 (R425, R412, R219). -/
  | extCmpA16 (w : Bool) (ra : GReg) (rb : GReg) (a : Word)
  /-- EXT.CMP EXT_DS_INDIRECT (R425, R413). -/
  | extCmpInd (rx : XReg) (d : Bool) (m : PtrMode) (ry : XReg)
  /-- EXT.CMP EXT_IM6 (R425, R412). -/
  | extCmpIm6 (rx : XReg) (im : BitVec 6)
  /-- EXT.CMP EXT_BASE_DISP6 (R425, R412). -/
  | extCmpBpIm6 (rx : XReg) (im : BitVec 6)
  /-- EXT.CMP EXT_A6 (R425, R412). -/
  | extCmpA6 (rx : XReg) (a : BitVec 6)
  /-- EXT.NEG EXT_REGISTER (R424, R412). -/
  | extNegReg (ra : GReg) (rb : GReg)
  /-- EXT.NEG EXT_IMM16 (R424, R412). -/
  | extNegIm16 (ra : GReg) (rb : GReg) (im : Word)
  /-- EXT.NEG EXT_A16_W0, EXT_A16_W1 (R424, R412, R219). -/
  | extNegA16 (w : Bool) (ra : GReg) (rb : GReg) (a : Word)
  /-- EXT.NEG EXT_DS_INDIRECT (R424, R413). -/
  | extNegInd (rx : XReg) (d : Bool) (m : PtrMode) (ry : XReg)
  /-- EXT.NEG EXT_IM6 (R424, R412). -/
  | extNegIm6 (rx : XReg) (im : BitVec 6)
  /-- EXT.NEG EXT_BASE_DISP6 (R424, R412). -/
  | extNegBpIm6 (rx : XReg) (im : BitVec 6)
  /-- EXT.NEG EXT_A6 (R424, R412). -/
  | extNegA6 (rx : XReg) (a : BitVec 6)
  /-- EXT.XOR EXT_REGISTER (R428, R412). -/
  | extXorReg (ra : GReg) (rb : GReg)
  /-- EXT.XOR EXT_IMM16 (R428, R412). -/
  | extXorIm16 (ra : GReg) (rb : GReg) (im : Word)
  /-- EXT.XOR EXT_A16_W0, EXT_A16_W1 (R428, R412, R219). -/
  | extXorA16 (w : Bool) (ra : GReg) (rb : GReg) (a : Word)
  /-- EXT.XOR EXT_DS_INDIRECT (R428, R413). -/
  | extXorInd (rx : XReg) (d : Bool) (m : PtrMode) (ry : XReg)
  /-- EXT.XOR EXT_IM6 (R428, R412). -/
  | extXorIm6 (rx : XReg) (im : BitVec 6)
  /-- EXT.XOR EXT_BASE_DISP6 (R428, R412). -/
  | extXorBpIm6 (rx : XReg) (im : BitVec 6)
  /-- EXT.XOR EXT_A6 (R428, R412). -/
  | extXorA6 (rx : XReg) (a : BitVec 6)
  /-- EXT.LOAD EXT_REGISTER (R415, R412). -/
  | extLoadReg (ra : GReg) (rb : GReg)
  /-- EXT.LOAD EXT_IMM16 (R415, R412). -/
  | extLoadIm16 (ra : GReg) (rb : GReg) (im : Word)
  /-- EXT.LOAD EXT_A16_W0 (R415, R412). -/
  | extLoadA16 (ra : GReg) (rb : GReg) (a : Word)
  /-- EXT.LOAD EXT_DS_INDIRECT (R415, R413). -/
  | extLoadInd (rx : XReg) (d : Bool) (m : PtrMode) (ry : XReg)
  /-- EXT.LOAD EXT_IM6 (R415, R412). -/
  | extLoadIm6 (rx : XReg) (im : BitVec 6)
  /-- EXT.LOAD EXT_BASE_DISP6 (R415, R412). -/
  | extLoadBpIm6 (rx : XReg) (im : BitVec 6)
  /-- EXT.LOAD EXT_A6 (R415, R412). -/
  | extLoadA6 (rx : XReg) (a : BitVec 6)
  /-- EXT.OR EXT_REGISTER (R427, R412). -/
  | extOrReg (ra : GReg) (rb : GReg)
  /-- EXT.OR EXT_IMM16 (R427, R412). -/
  | extOrIm16 (ra : GReg) (rb : GReg) (im : Word)
  /-- EXT.OR EXT_A16_W0, EXT_A16_W1 (R427, R412, R219). -/
  | extOrA16 (w : Bool) (ra : GReg) (rb : GReg) (a : Word)
  /-- EXT.OR EXT_DS_INDIRECT (R427, R413). -/
  | extOrInd (rx : XReg) (d : Bool) (m : PtrMode) (ry : XReg)
  /-- EXT.OR EXT_IM6 (R427, R412). -/
  | extOrIm6 (rx : XReg) (im : BitVec 6)
  /-- EXT.OR EXT_BASE_DISP6 (R427, R412). -/
  | extOrBpIm6 (rx : XReg) (im : BitVec 6)
  /-- EXT.OR EXT_A6 (R427, R412). -/
  | extOrA6 (rx : XReg) (a : BitVec 6)
  /-- EXT.AND EXT_REGISTER (R426, R412). -/
  | extAndReg (ra : GReg) (rb : GReg)
  /-- EXT.AND EXT_IMM16 (R426, R412). -/
  | extAndIm16 (ra : GReg) (rb : GReg) (im : Word)
  /-- EXT.AND EXT_A16_W0, EXT_A16_W1 (R426, R412, R219). -/
  | extAndA16 (w : Bool) (ra : GReg) (rb : GReg) (a : Word)
  /-- EXT.AND EXT_DS_INDIRECT (R426, R413). -/
  | extAndInd (rx : XReg) (d : Bool) (m : PtrMode) (ry : XReg)
  /-- EXT.AND EXT_IM6 (R426, R412). -/
  | extAndIm6 (rx : XReg) (im : BitVec 6)
  /-- EXT.AND EXT_BASE_DISP6 (R426, R412). -/
  | extAndBpIm6 (rx : XReg) (im : BitVec 6)
  /-- EXT.AND EXT_A6 (R426, R412). -/
  | extAndA6 (rx : XReg) (a : BitVec 6)
  /-- EXT.TEST EXT_REGISTER (R429, R412). -/
  | extTestReg (ra : GReg) (rb : GReg)
  /-- EXT.TEST EXT_IMM16 (R429, R412). -/
  | extTestIm16 (ra : GReg) (rb : GReg) (im : Word)
  /-- EXT.TEST EXT_A16_W0, EXT_A16_W1 (R429, R412, R219). -/
  | extTestA16 (w : Bool) (ra : GReg) (rb : GReg) (a : Word)
  /-- EXT.TEST EXT_DS_INDIRECT (R429, R413). -/
  | extTestInd (rx : XReg) (d : Bool) (m : PtrMode) (ry : XReg)
  /-- EXT.TEST EXT_IM6 (R429, R412). -/
  | extTestIm6 (rx : XReg) (im : BitVec 6)
  /-- EXT.TEST EXT_BASE_DISP6 (R429, R412). -/
  | extTestBpIm6 (rx : XReg) (im : BitVec 6)
  /-- EXT.TEST EXT_A6 (R429, R412). -/
  | extTestA6 (rx : XReg) (a : BitVec 6)
  /-- EXT.STORE EXT_A16_W0 (R416). -/
  | extStoreA16 (ra : GReg) (rb : GReg) (a : Word)
  /-- EXT.STORE EXT_DS_INDIRECT (R416, R413). -/
  | extStoreInd (rx : XReg) (d : Bool) (m : PtrMode) (ry : XReg)
  /-- EXT.STORE EXT_BASE_DISP6 (R416). -/
  | extStoreBpIm6 (rx : XReg) (im : BitVec 6)
  /-- EXT.STORE EXT_A6 (R416). -/
  | extStoreA6 (rx : XReg) (a : BitVec 6)
  /-- EXT.PUSH EXT_PUSH_POP (R417). -/
  | extPush (n : BitVec 3) (rx : XReg) (rb : GReg)
  /-- EXT.POP EXT_PUSH_POP (R418). -/
  | extPop (n : BitVec 3) (fld : BitVec 3) (rb : GReg)
  /-- RETF FIXED (R333). -/
  | retf
  /-- RETI FIXED (R334). -/
  | reti
  /-- GOTO_MR MR (R353). -/
  | gotoMr
  /-- BREAK MODE (R351). -/
  | brk
  /-- CALL_MR MODE (R332). -/
  | callMr
  /-- DIVS MODE (R269). -/
  | divs
  /-- DIVQ MODE (R270). -/
  | divq
  /-- EXP MODE (R273). -/
  | exp
  /-- NOP MODE (R368). -/
  | nop
  deriving DecidableEq, Repr

/-- The instructions only [1.3] has (R139): their bit patterns are not given, so they are reached through DECODE_13. -/
inductive Instr13 where
  /-- `Rd = B:[R@]`, `Rd = W:[R@]` (R382, R383). -/
  | loadInd (w : Width) (rd : Reg) (m : PtrMode) (x : PairReg)
  /-- `B:[R@] = Rd`, `W:[R@] = Rd` (R384, R385). -/
  | storeInd (w : Width) (m : PtrMode) (x : PairReg) (rd : Reg)
  /-- `B:[R@] = IMM8`, `W:[R@] = IMM16` (R386, R387). -/
  | storeIndImm (w : Width) (m : PtrMode) (x : PairReg) (im : Word)
  /-- `Rd = B:[BP+IM6]`, `Rd = W:[BP+IM6]` (R388). -/
  | loadBp (w : Width) (rd : PairReg) (im : BitVec 6)
  /-- `B:[BP+IM6] = Rd`, `W:[BP+IM6] = Rd` (R388). -/
  | storeBp (w : Width) (im : BitVec 6) (rd : PairReg)
  /-- `B:[BP+IM6] = IMM8`, `W:[BP+IM6] = IMM16` (R388). -/
  | storeBpImm (w : Width) (im : BitVec 6) (val : Word)
  /-- `Rd = B:I[R@]`, `Rd = W:I[R@]` (R390). -/
  | loadIdx (w : Width) (rd : Reg) (m : PtrMode) (x : PairReg)
  /-- `B:I[R@] = Rd`, `W:I[R@] = Rd` (R390). -/
  | storeIdx (w : Width) (m : PtrMode) (x : PairReg) (rd : Reg)
  /-- `B:I[R@] = IMM8`, `W:I[R@] = IMM16` (R390). -/
  | storeIdxImm (w : Width) (m : PtrMode) (x : PairReg) (im : Word)
  /-- `Rs = SS` (R315). -/
  | rsEqSs (rs : Reg)
  /-- `SS = Rs` (R316). -/
  | ssEqRs (rs : Reg)
  /-- `MDS = R3` (R317). -/
  | mdsEqR3
  /-- `R3 = MDS` (R318). -/
  | r3EqMds
  /-- `DIVUU MR, R2` (R274). -/
  | divuu
  /-- `DIVSS MR, R2` (R275). -/
  | divss
  /-- `BIT_OP {D:}[A16], offset` of [1.3] (R297). -/
  | bitA16 (op : BitOp) (d : Bool) (off : BitVec 4) (a : Word)
  deriving DecidableEq, Repr

/-- The shapes of the rows: one constructor per operand form, the operation as an argument where several rows differ in
it alone. `Instr.shape` (Decode.lean) takes an instruction to its shape; the decoder and the encoder speak of shapes. -/
inductive Shape where
  | retf
  | reti
  | branch (c : Cond) (back : Bool) (im : BitVec 6)
  | dsIm6 (im : BitVec 6)
  | goto (hi : Page) (lo : Word)
  | gotoMr
  | extPrefix (e : Word)
  | bitA16 (op : BitOp) (d : Bool) (off : BitVec 4) (a : Word)
  | aluBpIm6 (op : AluOp) (rd : Reg) (im : BitVec 6)
  | aluIm6 (op : AluOp) (rd : Reg) (im : BitVec 6)
  | aluInd (op : AluOp) (rd : Reg) (d : Bool) (m : PtrMode) (rs : Reg)
  | aluReg (op : AluOp) (rd : Reg) (rs : Reg)
  | aluIm16 (op : AluOp) (rd : Reg) (rs : Reg) (im : Word)
  | aluA16 (op : AluOp) (w : Bool) (rd : Reg) (rs : Reg) (a : Word)
  | aluShift (op : AluOp) (k : Shift4) (rd : Reg) (nn : BitVec 2) (rs : Reg)
  | aluA6 (op : AluOp) (rd : Reg) (a : BitVec 6)
  | storeBpIm6 (rd : Reg) (im : BitVec 6)
  | storeInd (rd : Reg) (d : Bool) (m : PtrMode) (rs : Reg)
  | storeA16 (rd : Reg) (rs : Reg) (a : Word)
  | storeA6 (rd : Reg) (a : BitVec 6)
  | push (rd : Reg) (n : BitVec 3) (rs : Reg)
  | pop (rd : Reg) (n : BitVec 3) (rs : Reg)
  | bitRegReg (op : BitOp) (rd : Reg) (rs : Reg)
  | bitRegOff (op : BitOp) (rd : Reg) (off : BitVec 4)
  | bitMemReg (op : BitOp) (rd : Reg) (d : Bool) (rs : Reg)
  | bitMemOff (op : BitOp) (rd : Reg) (d : Bool) (off : BitVec 4)
  | shift16 (k : Shift16) (rd : Reg) (rs : Reg)
  | mul (k : MulKind) (rd : Reg) (rs : Reg)
  | muls (k : MulKind) (rd : Reg) (n : BitVec 4) (rs : Reg)
  | int (f : Bool) (i : Bool)
  | firMov (off : Bool)
  | fraction (on : Bool)
  | irq (on : Bool)
  | secbank (on : Bool)
  | fiq (on : Bool)
  | irqnest (on : Bool)
  | brk
  | callMr
  | divs
  | divq
  | exp
  | nop
  | rsEqDs (rs : Reg)
  | dsEqRs (rs : Reg)
  | rsEqFr (rs : Reg)
  | frEqRs (rs : Reg)
  | call (hi : Page) (lo : Word)
  | extReg (op : AluOp) (ra : GReg) (rb : GReg)
  | extIm16 (op : AluOp) (ra : GReg) (rb : GReg) (im : Word)
  | extA16 (op : AluOp) (w : Bool) (ra : GReg) (rb : GReg) (a : Word)
  | extInd (op : AluOp) (rx : XReg) (d : Bool) (m : PtrMode) (ry : XReg)
  | extIm6 (op : AluOp) (rx : XReg) (im : BitVec 6)
  | extBpIm6 (op : AluOp) (rx : XReg) (im : BitVec 6)
  | extA6 (op : AluOp) (rx : XReg) (a : BitVec 6)
  | extStoreA16 (ra : GReg) (rb : GReg) (a : Word)
  | extStoreInd (rx : XReg) (d : Bool) (m : PtrMode) (ry : XReg)
  | extStoreBpIm6 (rx : XReg) (im : BitVec 6)
  | extStoreA6 (rx : XReg) (a : BitVec 6)
  | extPush (n : BitVec 3) (rx : XReg) (rb : GReg)
  | extPop (n : BitVec 3) (fld : BitVec 3) (rb : GReg)
  deriving DecidableEq, Repr

end Sys2Proof
end

