-- ==== Sys2Proof/Decode.lean ====
section
/-! DEFINITION. The decoder and the encoder of the instruction words (spec 30_encoding.md R120 to R146). The decoder is
the field procedure R124 with R137 and R138 for [2.0]; it is total and names what it rejects (R144). The encoder writes
the words of an instruction from the same rows, with 0 in every don't-care bit (R141). -/

namespace Sys2Proof

/-- Why a word is no instruction: the items of R144. -/
inductive Unassigned where
  /-- R144 (a): OP is the code of no operation (by default 0101 and 0111) and the word is no branch. -/
  | aluOpHole
  /-- R144 (b): bits 8:6 = 010 with an OP other than 1001 and 1101, or PUSH or POP with N = 000. -/
  | multiIndirect
  /-- R144 (c): OP = 1110 with Rd = 7 and bits 8:7 not 00. -/
  | rd7Of1110
  /-- R144 (d): OP = 1110, bits 8:6 = 000, bit 3 = 1, bits 5:4 not 00. -/
  | low000Of1110
  /-- R144 (e): OP = 1111, Rd not 7, bits 8:6 = 000 or 100 outside the rows. -/
  | lowOf1111
  /-- R144 (f): the holes of the mode group. -/
  | modeGroup
  /-- R144 (g): OP = 1111, Rd = 7, bits 8:6 = 100, 110 or 111, and not the prefix of [2.0]. -/
  | rd7Of1111
  /-- R144 (h): STORE without a memory operand, LOAD with W = 1, STORE [A16] with the other W (R202, D33). -/
  | form
  /-- R144 (i): an instruction of another version of the core. -/
  | version
  /-- R138, R410: a word after the prefix that is in no row of the ext table. -/
  | extWord
  deriving DecidableEq, Repr

/-! ### Code tables -/

/-- The 3-bit number of a core register (R20). -/
def Reg.num : Reg → BitVec 3
  | .sp => 0#3
  | .r1 => 1#3
  | .r2 => 2#3
  | .r3 => 3#3
  | .r4 => 4#3
  | .bp => 5#3
  | .sr => 6#3
  | .pc => 7#3

/-- The core register of a 3-bit number (R20). -/
def Reg.ofNum (n : BitVec 3) : Reg :=
  if n = 0#3 then .sp else
  if n = 1#3 then .r1 else
  if n = 2#3 then .r2 else
  if n = 3#3 then .r3 else
  if n = 4#3 then .r4 else
  if n = 5#3 then .bp else
  if n = 6#3 then .sr else
  .pc

/-- An extend register R8..R15 as its number less 8 (R138). -/
def XReg.num : XReg → BitVec 3
  | .r8 => 0#3
  | .r9 => 1#3
  | .r10 => 2#3
  | .r11 => 3#3
  | .r12 => 4#3
  | .r13 => 5#3
  | .r14 => 6#3
  | .r15 => 7#3

/-- The extend register 8 + n (R138). -/
def XReg.ofNum (n : BitVec 3) : XReg :=
  if n = 0#3 then .r8 else
  if n = 1#3 then .r9 else
  if n = 2#3 then .r10 else
  if n = 3#3 then .r11 else
  if n = 4#3 then .r12 else
  if n = 5#3 then .r13 else
  if n = 6#3 then .r14 else
  .r15

/-- The @ codes (R87, R128). -/
def PtrMode.num : PtrMode → BitVec 2
  | .keep => 0#2
  | .postDec => 1#2
  | .postInc => 2#2
  | .preInc => 3#2

/-- The pointer mode of an @ code (R87, R128). -/
def PtrMode.ofNum (n : BitVec 2) : PtrMode :=
  if n = 0#2 then .keep else
  if n = 1#2 then .postDec else
  if n = 2#2 then .postInc else
  .preInc

/-- The BIT_OP codes (R291). -/
def BitOp.num : BitOp → BitVec 2
  | .tst => 0#2
  | .set => 1#2
  | .clr => 2#2
  | .inv => 3#2

/-- The bit operation of a BIT_OP code (R291). -/
def BitOp.ofNum (n : BitVec 2) : BitOp :=
  if n = 0#2 then .tst else
  if n = 1#2 then .set else
  if n = 2#2 then .clr else
  .inv

/-- The LSFT codes (R240). -/
def Shift16.num : Shift16 → BitVec 3
  | .asr => 0#3
  | .asrOr => 1#3
  | .lsl => 2#3
  | .lslOr => 3#3
  | .lsr => 4#3
  | .lsrOr => 5#3
  | .rol => 6#3
  | .ror => 7#3

/-- The 16-bit shift of an LSFT code (R240). -/
def Shift16.ofNum (n : BitVec 3) : Shift16 :=
  if n = 0#3 then .asr else
  if n = 1#3 then .asrOr else
  if n = 2#3 then .lsl else
  if n = 3#3 then .lslOr else
  if n = 4#3 then .lsr else
  if n = 5#3 then .lsrOr else
  if n = 6#3 then .rol else
  .ror

/-- The ALU_OP code of an operation; LOAD is 1001 in every map (R123; STORE, 1101, has rows of its own). -/
def Params.aluNum (p : Params) (op : AluOp) : BitVec 4 :=
  match op with
  | .add => p.aluCodes.add
  | .adc => p.aluCodes.adc
  | .sub => p.aluCodes.sub
  | .sbc => p.aluCodes.sbc
  | .cmp => p.aluCodes.cmp
  | .neg => p.aluCodes.neg
  | .xor => p.aluCodes.xor
  | .load => 0b1001#4
  | .or => p.aluCodes.or
  | .and => p.aluCodes.and
  | .test => p.aluCodes.test

/-- The operation of an ALU_OP code other than STORE; `none` for the codes that are no ALU_OP (R123). -/
def Params.aluOf? (p : Params) (n : BitVec 4) : Option AluOp :=
  if n = p.aluNum .add then some .add else
  if n = p.aluNum .adc then some .adc else
  if n = p.aluNum .sub then some .sub else
  if n = p.aluNum .sbc then some .sbc else
  if n = p.aluNum .cmp then some .cmp else
  if n = p.aluNum .neg then some .neg else
  if n = p.aluNum .xor then some .xor else
  if n = p.aluNum .load then some .load else
  if n = p.aluNum .or then some .or else
  if n = p.aluNum .and then some .and else
  if n = p.aluNum .test then some .test else
  none

/-- The COND codes (R135). -/
def Cond.num : Cond → BitVec 4
  | .cc => 0#4
  | .cs => 1#4
  | .sc => 2#4
  | .ss => 3#4
  | .ne => 4#4
  | .z => 5#4
  | .pl => 6#4
  | .mi => 7#4
  | .be => 8#4
  | .nbe => 9#4
  | .le => 10#4
  | .nle => 11#4
  | .vc => 12#4
  | .vs => 13#4
  | .always => 14#4

/-- The condition of a COND code; 1111 is no branch (R135). -/
def Cond.ofNum? (n : BitVec 4) : Option Cond :=
  if n = 0#4 then some .cc else
  if n = 1#4 then some .cs else
  if n = 2#4 then some .sc else
  if n = 3#4 then some .ss else
  if n = 4#4 then some .ne else
  if n = 5#4 then some .z else
  if n = 6#4 then some .pl else
  if n = 7#4 then some .mi else
  if n = 8#4 then some .be else
  if n = 9#4 then some .nbe else
  if n = 10#4 then some .le else
  if n = 11#4 then some .nle else
  if n = 12#4 then some .vc else
  if n = 13#4 then some .vs else
  if n = 14#4 then some .always else
  none

/-- The 4-bit number of a core or extend register: its bit 3 (R138, R411). -/
def GReg.hi : GReg → BitVec 1
  | .core _ => 0#1
  | .ext _ => 1#1

/-- The 4-bit number of a core or extend register: its bits 2:0 (R138, R411). -/
def GReg.lo : GReg → BitVec 3
  | .core r => r.num
  | .ext x => x.num

/-- The register of a 4-bit number: 0 to 7 the core registers, 8 to 15 the extend registers (R411). -/
def GReg.ofNum (hi : BitVec 1) (lo : BitVec 3) : GReg :=
  if hi = 0#1 then .core (Reg.ofNum lo) else .ext (XReg.ofNum lo)

/-- The bit of a flag in a field (W, D, F, I, ...). -/
def bit (b : Bool) : BitVec 1 := BitVec.ofBool b

/-- Bits 8:6 of the shifted-register rows: bit 8 = 1, bits 7:6 the high bits of SFT (R125, R127). -/
def Shift4.mode : Shift4 → BitVec 3
  | .asr => 0b100#3
  | .lsl => 0b101#3
  | .lsr => 0b101#3
  | .rol => 0b110#3
  | .ror => 0b110#3

/-- Bit 5 of the shifted-register rows: the low bit of SFT (R125, R127). -/
def Shift4.low : Shift4 → BitVec 1
  | .asr => 1#1
  | .lsl => 0#1
  | .lsr => 1#1
  | .rol => 0#1
  | .ror => 1#1

/-- Bit 12 of a multiply, 1 when Rs is signed (S_Rs, R132). -/
def MulKind.sRs : MulKind → BitVec 1
  | .uu => 0#1
  | .us => 1#1
  | .ss => 1#1

/-- Bit 8 of a multiply, 1 when Rd is signed (S_Rd, R132). -/
def MulKind.sRd : MulKind → BitVec 1
  | .uu => 0#1
  | .us => 0#1
  | .ss => 1#1

/-- The prefix word of the extended instructions (parameter `EXT_PREFIX`, R137 (c)). -/
def Params.prefixWord (p : Params) : Word :=
  match p.extPrefix with
  | .table => 0xFFC0#16
  | .note => 0xFF80#16

/-- Bits 8:6 of the prefix word (R137 (c)). -/
def Params.prefixMode (p : Params) : BitVec 3 :=
  match p.extPrefix with
  | .table => 0b111#3
  | .note => 0b110#3

/-- The mode field 10W of the [A16] rows is bits 5:3 = 01W; W of the STORE row is `STORE_A16_W` (R171, D33). -/
def Params.storeBit (p : Params) : BitVec 1 := bit p.storeW

/-! ### Fields of a word (R122) -/

/-- The word of the fields OP (15:12), Rd (11:9), mode (8:6) and bits 5:0 (R122). -/
def mkWord (op : BitVec 4) (rd : BitVec 3) (m : BitVec 3) (lo : BitVec 6) : Word := op ++ rd ++ m ++ lo

/-- Bits 15:12. -/
def opField (w : Word) : BitVec 4 := w.extractLsb' 12 4

/-- Bits 11:9. -/
def rdField (w : Word) : BitVec 3 := w.extractLsb' 9 3

/-- Bits 8:6. -/
def modeField (w : Word) : BitVec 3 := w.extractLsb' 6 3

/-- Bits 5:0. -/
def lowField (w : Word) : BitVec 6 := w.extractLsb' 0 6

/-- Bits 5:3 of the low field: N of PUSH and POP, the sub-mode of bits 8:6 = 100 (R125). -/
def lowHi (lo : BitVec 6) : BitVec 3 := lo.extractLsb' 3 3

/-- Bits 2:0 of the low field: Rs. -/
def lowRs (lo : BitVec 6) : BitVec 3 := lo.extractLsb' 0 3

/-- Bits 5:4 of the low field: BIT_OP. -/
def lowBit (lo : BitVec 6) : BitVec 2 := lo.extractLsb' 4 2

/-- Bits 4:3 of the low field: @ or n. -/
def lowAt (lo : BitVec 6) : BitVec 2 := lo.extractLsb' 3 2

/-- Bits 3:0 of the low field: offset or Rb. -/
def lowOff (lo : BitVec 6) : BitVec 4 := lo.extractLsb' 0 4

/-! ### The decoder -/

/-- The forms of LOAD and of the ALU operations (R125, R202). -/
def decodeAlu (op : AluOp) (rd : Reg) (m : BitVec 3) (lo : BitVec 6) (w1 : Word) : Except Unassigned Shape :=
  let rs := Reg.ofNum (lowRs lo)
  if m = 0b000#3 then .ok (.aluBpIm6 op rd lo) else
  if m = 0b001#3 then .ok (.aluIm6 op rd lo) else
  if m = 0b011#3 then .ok (.aluInd op rd (lo.getLsbD 5) (PtrMode.ofNum (lowAt lo)) rs) else
  if m = 0b111#3 then .ok (.aluA6 op rd lo) else
  if m = 0b100#3 then
    if lowHi lo = 0b000#3 then .ok (.aluReg op rd rs) else
    if lowHi lo = 0b001#3 then .ok (.aluIm16 op rd rs w1) else
    if lowHi lo = 0b010#3 then .ok (.aluA16 op false rd rs w1) else
    if lowHi lo = 0b011#3 then (if op = .load then .error .form else .ok (.aluA16 op true rd rs w1)) else
    .ok (.aluShift op .asr rd (lowAt lo) rs)
  else
  if m = 0b101#3 then .ok (.aluShift op (if lo.getLsbD 5 then .lsr else .lsl) rd (lowAt lo) rs) else
  if m = 0b110#3 then .ok (.aluShift op (if lo.getLsbD 5 then .ror else .rol) rd (lowAt lo) rs) else
  .error .multiIndirect

/-- PUSH and POP: the words with bits 8:6 = 010 (R125, R130). -/
def decodeMulti (op : BitVec 4) (rd : Reg) (lo : BitVec 6) : Except Unassigned Shape :=
  if lowHi lo = 0b000#3 then .error .multiIndirect else
  if op = 0b1001#4 then .ok (.pop rd (lowHi lo) (Reg.ofNum (lowRs lo))) else
  if op = 0b1101#4 then .ok (.push rd (lowHi lo) (Reg.ofNum (lowRs lo))) else
  .error .multiIndirect

/-- The forms of STORE (R171, R202). -/
def decodeStore (p : Params) (rd : Reg) (m : BitVec 3) (lo : BitVec 6) (w1 : Word) : Except Unassigned Shape :=
  let rs := Reg.ofNum (lowRs lo)
  if m = 0b000#3 then .ok (.storeBpIm6 rd lo) else
  if m = 0b011#3 then .ok (.storeInd rd (lo.getLsbD 5) (PtrMode.ofNum (lowAt lo)) rs) else
  if m = 0b111#3 then .ok (.storeA6 rd lo) else
  if m = 0b100#3 ∧ lowHi lo = 0b01#2 ++ p.storeBit then .ok (.storeA16 rd rs w1) else
  .error .form

/-- OP = 1110: bit operations, 16-bit shifts, MUL uu and MULS uu (R132). -/
def decode1110 (rd : Reg) (m : BitVec 3) (lo : BitVec 6) : Except Unassigned Shape :=
  let rs := Reg.ofNum (lowRs lo)
  if rd = .pc then .error .rd7Of1110 else
  if m = 0b000#3 then
    if lo.getLsbD 3 then
      if lowBit lo = 0b00#2 then .ok (.mul .uu rd rs) else .error .low000Of1110
    else .ok (.bitRegReg (BitOp.ofNum (lowBit lo)) rd rs)
  else
  if m = 0b001#3 then .ok (.bitRegOff (BitOp.ofNum (lowBit lo)) rd (lowOff lo)) else
  if m = 0b010#3 ∨ m = 0b011#3 then .ok (.muls .uu rd (m.extractLsb' 0 1 ++ lowHi lo) rs) else
  if m = 0b100#3 ∨ m = 0b101#3 then
    if lo.getLsbD 3 then .ok (.shift16 (Shift16.ofNum (m.extractLsb' 0 1 ++ lowBit lo)) rd rs)
    else .ok (.bitMemReg (BitOp.ofNum (lowBit lo)) rd (m.getLsbD 0) rs)
  else
  .ok (.bitMemOff (BitOp.ofNum (lowBit lo)) rd (m.getLsbD 0) (lowOff lo))

/-- The mode group, bits 8:6 = 101 of OP = 1111 (R133). -/
def decodeMode (lo : BitVec 6) : Except Unassigned Shape :=
  if lo.getLsbD 5 then
    if lowRs lo = 0b000#3 then .ok .brk else
    if lowRs lo = 0b001#3 then .ok .callMr else
    if lowRs lo = 0b010#3 then .ok .divs else
    if lowRs lo = 0b011#3 then .ok .divq else
    if lowRs lo = 0b100#3 then .ok .exp else
    if lowRs lo = 0b101#3 then .ok .nop else
    .error .modeGroup
  else if lo.getLsbD 4 then .error .modeGroup
  else
    let k := lo.extractLsb' 1 3
    if k = 0b000#3 ∨ k = 0b001#3 then .ok (.int (lo.getLsbD 1) (lo.getLsbD 0)) else
    if k = 0b010#3 then .ok (.firMov (lo.getLsbD 0)) else
    if k = 0b011#3 then .ok (.fraction (lo.getLsbD 0)) else
    if k = 0b100#3 then .ok (.irq (lo.getLsbD 0)) else
    if k = 0b101#3 then .ok (.secbank (lo.getLsbD 0)) else
    if lo.getLsbD 0 then .ok (.irqnest (lo.getLsbD 1)) else .ok (.fiq (lo.getLsbD 1))

/-- The word after the prefix (R138, R410 to R418, R430). -/
def decodeExt (p : Params) (e w2 : Word) : Except Unassigned Shape :=
  let m := modeField e
  let lo := lowField e
  let ra := GReg.ofNum (m.extractLsb' 2 1) (rdField e)
  let rb := GReg.ofNum (lo.extractLsb' 3 1) (lowRs lo)
  let rx := XReg.ofNum (rdField e)
  let ry := XReg.ofNum (lowRs lo)
  if m = 0b000#3 ∧ lowBit lo = 0b10#2 then
    let size := (opField e).extractLsb' 0 3
    if size = 0b000#3 then .error .extWord else
    if (opField e).getLsbD 3 then .ok (.extPush size rx rb) else .ok (.extPop size (rdField e) rb)
  else
  if opField e = 0b1101#4 then
    if (m = 0b001#3 ∨ m = 0b101#3) ∧ lowBit lo = 0b1#1 ++ p.storeBit then .ok (.extStoreA16 ra rb w2) else
    if m = 0b010#3 then .ok (.extStoreInd rx (lo.getLsbD 5) (PtrMode.ofNum (lowAt lo)) ry) else
    if m = 0b011#3 then .ok (.extStoreBpIm6 rx lo) else
    if m = 0b111#3 then .ok (.extStoreA6 rx lo) else
    .error .extWord
  else
  match p.aluOf? (opField e) with
  | none => .error .extWord
  | some op =>
    if m = 0b010#3 then .ok (.extInd op rx (lo.getLsbD 5) (PtrMode.ofNum (lowAt lo)) ry) else
    if m = 0b110#3 then .ok (.extIm6 op rx lo) else
    if m = 0b011#3 then .ok (.extBpIm6 op rx lo) else
    if m = 0b111#3 then .ok (.extA6 op rx lo) else
    if m = 0b000#3 ∨ m = 0b100#3 then
      if lowBit lo = 0b00#2 then .ok (.extReg op ra rb) else .error .extWord
    else
    if lowBit lo = 0b00#2 then .ok (.extIm16 op ra rb w2) else
    if lowBit lo = 0b10#2 then .ok (.extA16 op false ra rb w2) else
    if lowBit lo = 0b11#2 then (if op = .load then .error .extWord else .ok (.extA16 op true ra rb w2)) else
    .error .extWord

/-- OP = 1111 (step 6 of R124; R132, R133, R136, R137). A prefix before a word of no ext row is the instruction
`extPrefix`, which the machine refuses (log 49). -/
def decode1111 (p : Params) (rd : BitVec 3) (m : BitVec 3) (lo : BitVec 6) (w1 w2 : Word) : Except Unassigned Shape :=
  let rs := Reg.ofNum (lowRs lo)
  if m = 0b101#3 then decodeMode lo else
  if m = 0b001#3 then
    if p.ver = .v20 ∧ rd.getLsbD 0 then
      .ok (.bitA16 (BitOp.ofNum (lowBit lo)) (rd.getLsbD 1) (lowOff lo) w1)
    else .ok (.call lo w1)
  else
  if rd = 0b111#3 then
    if m = 0b000#3 then .ok (.dsIm6 lo) else
    if m = 0b010#3 then .ok (.goto lo w1) else
    if m = 0b011#3 then .ok .gotoMr else
    if p.ver = .v20 ∧ m = p.prefixMode ∧ lo = 0b000000#6 then
      match decodeExt p w1 w2 with
      | .ok sh => .ok sh
      | .error _ => .ok (.extPrefix w1)
    else .error .rd7Of1111
  else
  if m = 0b000#3 then
    if lowBit lo = 0b10#2 then (if lo.getLsbD 3 then .ok (.dsEqRs rs) else .ok (.rsEqDs rs)) else
    if lowBit lo = 0b11#2 then (if lo.getLsbD 3 then .ok (.frEqRs rs) else .ok (.rsEqFr rs)) else
    if lowHi lo = 0b001#3 then .ok (.mul .us (Reg.ofNum rd) rs) else
    .error .lowOf1111
  else
  if m = 0b010#3 ∨ m = 0b011#3 then .ok (.muls .us (Reg.ofNum rd) (m.extractLsb' 0 1 ++ lowHi lo) rs) else
  if m = 0b100#3 then
    if lowHi lo = 0b001#3 then .ok (.mul .ss (Reg.ofNum rd) rs) else .error .lowOf1111
  else
  .ok (.muls .ss (Reg.ofNum rd) (m.extractLsb' 0 1 ++ lowHi lo) rs)

/-- The decode procedure R124 on the fields of the first word and the two words after it. RETF is the word 0x9A90 and
RETI 0x9A98 (R131). -/
def decodeFields (p : Params) (op : BitVec 4) (rd : BitVec 3) (m : BitVec 3) (lo : BitVec 6) (w1 w2 : Word) :
    Except Unassigned Shape :=
  if op = 0b1001#4 ∧ rd = 0b101#3 ∧ m = 0b010#3 ∧ lo = 0b010000#6 then .ok .retf else
  if op = 0b1001#4 ∧ rd = 0b101#3 ∧ m = 0b010#3 ∧ lo = 0b011000#6 then .ok .reti else
  if op = 0b1111#4 then decode1111 p rd m lo w1 w2 else
  if rd = 0b111#3 ∧ (m = 0b000#3 ∨ m = 0b001#3) then
    match Cond.ofNum? op with
    | some c => .ok (.branch c (m.getLsbD 0) lo)
    | none => .error .rd7Of1111
  else
  if op = 0b1110#4 then decode1110 (Reg.ofNum rd) m lo else
  if op ≠ 0b1101#4 ∧ p.aluOf? op = none then .error .aluOpHole else
  if m = 0b010#3 then decodeMulti op (Reg.ofNum rd) lo else
  if op = 0b1101#4 then decodeStore p (Reg.ofNum rd) m lo w1 else
  match p.aluOf? op with
  | some o => decodeAlu o (Reg.ofNum rd) m lo w1
  | none => .error .aluOpHole

/-- Which versions of the core have the instructions of a shape (R2, R144 (i); the `versions` of the table). IRQNEST
exists in [1.3] by R367, which the table's row leaves out (log 16). -/
def Shape.availableIn (v : Version) : Shape → Bool
  | .retf | .reti | .branch _ _ _ | .aluBpIm6 _ _ _ | .aluIm6 _ _ _ | .aluInd _ _ _ _ _ | .aluReg _ _ _
  | .aluIm16 _ _ _ _ | .aluShift _ _ _ _ _ | .aluA6 _ _ _ | .storeBpIm6 _ _ | .storeInd _ _ _ _
  | .storeA16 _ _ _ | .storeA6 _ _ | .push _ _ _ | .pop _ _ _ | .int _ _ | .firMov _ | .irq _ | .fiq _ | .brk | .nop
  | .call _ _ => true
  | .goto _ _ => decide (v ≠ .v10)
  | .aluA16 _ w _ _ _ => !w || v.is12Plus
  | .mul k _ _ => decide (k ≠ .uu) || v.is12Plus
  | .muls k _ _ _ => decide (k ≠ .uu) || v.is12Plus
  | .dsIm6 _ | .gotoMr | .bitRegReg _ _ _ | .bitRegOff _ _ _ | .bitMemReg _ _ _ _
  | .bitMemOff _ _ _ _ | .shift16 _ _ _ | .fraction _ | .secbank _ | .irqnest _ | .callMr | .divs | .divq | .exp
  | .rsEqDs _ | .dsEqRs _ | .rsEqFr _ | .frEqRs _ => v.is12Plus
  | .extPrefix _ | .bitA16 _ _ _ _ | .extReg _ _ _ | .extIm16 _ _ _ _ | .extA16 _ _ _ _ _
  | .extInd _ _ _ _ _ | .extIm6 _ _ _ | .extBpIm6 _ _ _ | .extA6 _ _ _ | .extStoreA16 _ _ _ | .extStoreInd _ _ _ _
  | .extStoreBpIm6 _ _ | .extStoreA6 _ _ | .extPush _ _ _ | .extPop _ _ _ => decide (v = .v20)

/-! ### Instructions and shapes -/

/-- The shape of an instruction. -/
def Instr.shape : Instr → Shape
  | .jcc back im => .branch .cc back im
  | .jcs back im => .branch .cs back im
  | .jsc back im => .branch .sc back im
  | .jss back im => .branch .ss back im
  | .jne back im => .branch .ne back im
  | .jz back im => .branch .z back im
  | .jpl back im => .branch .pl back im
  | .jmi back im => .branch .mi back im
  | .jbe back im => .branch .be back im
  | .jnbe back im => .branch .nbe back im
  | .jle back im => .branch .le back im
  | .jnle back im => .branch .nle back im
  | .jvc back im => .branch .vc back im
  | .jvs back im => .branch .vs back im
  | .jmp back im => .branch .always back im
  | .dsIm6 im => .dsIm6 im
  | .goto hi lo => .goto hi lo
  | .extPrefix e => .extPrefix e
  | .tstbA16 d off a => .bitA16 .tst d off a
  | .setbA16 d off a => .bitA16 .set d off a
  | .clrbA16 d off a => .bitA16 .clr d off a
  | .invbA16 d off a => .bitA16 .inv d off a
  | .addBpIm6 rd im => .aluBpIm6 .add rd im
  | .addIm6 rd im => .aluIm6 .add rd im
  | .addInd rd d m rs => .aluInd .add rd d m rs
  | .addReg rd rs => .aluReg .add rd rs
  | .addIm16 rd rs im => .aluIm16 .add rd rs im
  | .addA16 w rd rs a => .aluA16 .add w rd rs a
  | .addShift k rd nn rs => .aluShift .add k rd nn rs
  | .addA6 rd a => .aluA6 .add rd a
  | .adcBpIm6 rd im => .aluBpIm6 .adc rd im
  | .adcIm6 rd im => .aluIm6 .adc rd im
  | .adcInd rd d m rs => .aluInd .adc rd d m rs
  | .adcReg rd rs => .aluReg .adc rd rs
  | .adcIm16 rd rs im => .aluIm16 .adc rd rs im
  | .adcA16 w rd rs a => .aluA16 .adc w rd rs a
  | .adcShift k rd nn rs => .aluShift .adc k rd nn rs
  | .adcA6 rd a => .aluA6 .adc rd a
  | .subBpIm6 rd im => .aluBpIm6 .sub rd im
  | .subIm6 rd im => .aluIm6 .sub rd im
  | .subInd rd d m rs => .aluInd .sub rd d m rs
  | .subReg rd rs => .aluReg .sub rd rs
  | .subIm16 rd rs im => .aluIm16 .sub rd rs im
  | .subA16 w rd rs a => .aluA16 .sub w rd rs a
  | .subShift k rd nn rs => .aluShift .sub k rd nn rs
  | .subA6 rd a => .aluA6 .sub rd a
  | .sbcBpIm6 rd im => .aluBpIm6 .sbc rd im
  | .sbcIm6 rd im => .aluIm6 .sbc rd im
  | .sbcInd rd d m rs => .aluInd .sbc rd d m rs
  | .sbcReg rd rs => .aluReg .sbc rd rs
  | .sbcIm16 rd rs im => .aluIm16 .sbc rd rs im
  | .sbcA16 w rd rs a => .aluA16 .sbc w rd rs a
  | .sbcShift k rd nn rs => .aluShift .sbc k rd nn rs
  | .sbcA6 rd a => .aluA6 .sbc rd a
  | .cmpBpIm6 rd im => .aluBpIm6 .cmp rd im
  | .cmpIm6 rd im => .aluIm6 .cmp rd im
  | .cmpInd rd d m rs => .aluInd .cmp rd d m rs
  | .cmpReg rd rs => .aluReg .cmp rd rs
  | .cmpIm16 rd rs im => .aluIm16 .cmp rd rs im
  | .cmpA16 w rd rs a => .aluA16 .cmp w rd rs a
  | .cmpShift k rd nn rs => .aluShift .cmp k rd nn rs
  | .cmpA6 rd a => .aluA6 .cmp rd a
  | .negBpIm6 rd im => .aluBpIm6 .neg rd im
  | .negIm6 rd im => .aluIm6 .neg rd im
  | .negInd rd d m rs => .aluInd .neg rd d m rs
  | .negReg rd rs => .aluReg .neg rd rs
  | .negIm16 rd rs im => .aluIm16 .neg rd rs im
  | .negA16 w rd rs a => .aluA16 .neg w rd rs a
  | .negShift k rd nn rs => .aluShift .neg k rd nn rs
  | .negA6 rd a => .aluA6 .neg rd a
  | .xorBpIm6 rd im => .aluBpIm6 .xor rd im
  | .xorIm6 rd im => .aluIm6 .xor rd im
  | .xorInd rd d m rs => .aluInd .xor rd d m rs
  | .xorReg rd rs => .aluReg .xor rd rs
  | .xorIm16 rd rs im => .aluIm16 .xor rd rs im
  | .xorA16 w rd rs a => .aluA16 .xor w rd rs a
  | .xorShift k rd nn rs => .aluShift .xor k rd nn rs
  | .xorA6 rd a => .aluA6 .xor rd a
  | .loadBpIm6 rd im => .aluBpIm6 .load rd im
  | .loadIm6 rd im => .aluIm6 .load rd im
  | .loadInd rd d m rs => .aluInd .load rd d m rs
  | .loadReg rd rs => .aluReg .load rd rs
  | .loadIm16 rd rs im => .aluIm16 .load rd rs im
  | .loadA16 rd rs a => .aluA16 .load false rd rs a
  | .loadShift k rd nn rs => .aluShift .load k rd nn rs
  | .loadA6 rd a => .aluA6 .load rd a
  | .orBpIm6 rd im => .aluBpIm6 .or rd im
  | .orIm6 rd im => .aluIm6 .or rd im
  | .orInd rd d m rs => .aluInd .or rd d m rs
  | .orReg rd rs => .aluReg .or rd rs
  | .orIm16 rd rs im => .aluIm16 .or rd rs im
  | .orA16 w rd rs a => .aluA16 .or w rd rs a
  | .orShift k rd nn rs => .aluShift .or k rd nn rs
  | .orA6 rd a => .aluA6 .or rd a
  | .andBpIm6 rd im => .aluBpIm6 .and rd im
  | .andIm6 rd im => .aluIm6 .and rd im
  | .andInd rd d m rs => .aluInd .and rd d m rs
  | .andReg rd rs => .aluReg .and rd rs
  | .andIm16 rd rs im => .aluIm16 .and rd rs im
  | .andA16 w rd rs a => .aluA16 .and w rd rs a
  | .andShift k rd nn rs => .aluShift .and k rd nn rs
  | .andA6 rd a => .aluA6 .and rd a
  | .testBpIm6 rd im => .aluBpIm6 .test rd im
  | .testIm6 rd im => .aluIm6 .test rd im
  | .testInd rd d m rs => .aluInd .test rd d m rs
  | .testReg rd rs => .aluReg .test rd rs
  | .testIm16 rd rs im => .aluIm16 .test rd rs im
  | .testA16 w rd rs a => .aluA16 .test w rd rs a
  | .testShift k rd nn rs => .aluShift .test k rd nn rs
  | .testA6 rd a => .aluA6 .test rd a
  | .storeBpIm6 rd im => .storeBpIm6 rd im
  | .storeInd rd d m rs => .storeInd rd d m rs
  | .storeA16 rd rs a => .storeA16 rd rs a
  | .storeA6 rd a => .storeA6 rd a
  | .push rd n rs => .push rd n rs
  | .pop rd n rs => .pop rd n rs
  | .tstbRegReg rd rs => .bitRegReg .tst rd rs
  | .tstbRegOff rd off => .bitRegOff .tst rd off
  | .tstbMemReg rd d rs => .bitMemReg .tst rd d rs
  | .tstbMemOff rd d off => .bitMemOff .tst rd d off
  | .setbRegReg rd rs => .bitRegReg .set rd rs
  | .setbRegOff rd off => .bitRegOff .set rd off
  | .setbMemReg rd d rs => .bitMemReg .set rd d rs
  | .setbMemOff rd d off => .bitMemOff .set rd d off
  | .clrbRegReg rd rs => .bitRegReg .clr rd rs
  | .clrbRegOff rd off => .bitRegOff .clr rd off
  | .clrbMemReg rd d rs => .bitMemReg .clr rd d rs
  | .clrbMemOff rd d off => .bitMemOff .clr rd d off
  | .invbRegReg rd rs => .bitRegReg .inv rd rs
  | .invbRegOff rd off => .bitRegOff .inv rd off
  | .invbMemReg rd d rs => .bitMemReg .inv rd d rs
  | .invbMemOff rd d off => .bitMemOff .inv rd d off
  | .asr16 rd rs => .shift16 .asr rd rs
  | .asrOr16 rd rs => .shift16 .asrOr rd rs
  | .lsl16 rd rs => .shift16 .lsl rd rs
  | .lslOr16 rd rs => .shift16 .lslOr rd rs
  | .lsr16 rd rs => .shift16 .lsr rd rs
  | .lsrOr16 rd rs => .shift16 .lsrOr rd rs
  | .rol16 rd rs => .shift16 .rol rd rs
  | .ror16 rd rs => .shift16 .ror rd rs
  | .mulUu rd rs => .mul .uu rd rs
  | .mulUs rd rs => .mul .us rd rs
  | .mulSs rd rs => .mul .ss rd rs
  | .mulsUu rd n rs => .muls .uu rd n rs
  | .mulsUs rd n rs => .muls .us rd n rs
  | .mulsSs rd n rs => .muls .ss rd n rs
  | .int f i => .int f i
  | .firMov off => .firMov off
  | .fraction on => .fraction on
  | .irq on => .irq on
  | .secbank on => .secbank on
  | .fiq on => .fiq on
  | .irqnest on => .irqnest on
  | .rsEqDs rs => .rsEqDs rs
  | .dsEqRs rs => .dsEqRs rs
  | .rsEqFr rs => .rsEqFr rs
  | .frEqRs rs => .frEqRs rs
  | .call hi lo => .call hi lo
  | .extAddReg ra rb => .extReg .add ra rb
  | .extAddIm16 ra rb im => .extIm16 .add ra rb im
  | .extAddA16 w ra rb a => .extA16 .add w ra rb a
  | .extAddInd rx d m ry => .extInd .add rx d m ry
  | .extAddIm6 rx im => .extIm6 .add rx im
  | .extAddBpIm6 rx im => .extBpIm6 .add rx im
  | .extAddA6 rx a => .extA6 .add rx a
  | .extAdcReg ra rb => .extReg .adc ra rb
  | .extAdcIm16 ra rb im => .extIm16 .adc ra rb im
  | .extAdcA16 w ra rb a => .extA16 .adc w ra rb a
  | .extAdcInd rx d m ry => .extInd .adc rx d m ry
  | .extAdcIm6 rx im => .extIm6 .adc rx im
  | .extAdcBpIm6 rx im => .extBpIm6 .adc rx im
  | .extAdcA6 rx a => .extA6 .adc rx a
  | .extSubReg ra rb => .extReg .sub ra rb
  | .extSubIm16 ra rb im => .extIm16 .sub ra rb im
  | .extSubA16 w ra rb a => .extA16 .sub w ra rb a
  | .extSubInd rx d m ry => .extInd .sub rx d m ry
  | .extSubIm6 rx im => .extIm6 .sub rx im
  | .extSubBpIm6 rx im => .extBpIm6 .sub rx im
  | .extSubA6 rx a => .extA6 .sub rx a
  | .extSbcReg ra rb => .extReg .sbc ra rb
  | .extSbcIm16 ra rb im => .extIm16 .sbc ra rb im
  | .extSbcA16 w ra rb a => .extA16 .sbc w ra rb a
  | .extSbcInd rx d m ry => .extInd .sbc rx d m ry
  | .extSbcIm6 rx im => .extIm6 .sbc rx im
  | .extSbcBpIm6 rx im => .extBpIm6 .sbc rx im
  | .extSbcA6 rx a => .extA6 .sbc rx a
  | .extCmpReg ra rb => .extReg .cmp ra rb
  | .extCmpIm16 ra rb im => .extIm16 .cmp ra rb im
  | .extCmpA16 w ra rb a => .extA16 .cmp w ra rb a
  | .extCmpInd rx d m ry => .extInd .cmp rx d m ry
  | .extCmpIm6 rx im => .extIm6 .cmp rx im
  | .extCmpBpIm6 rx im => .extBpIm6 .cmp rx im
  | .extCmpA6 rx a => .extA6 .cmp rx a
  | .extNegReg ra rb => .extReg .neg ra rb
  | .extNegIm16 ra rb im => .extIm16 .neg ra rb im
  | .extNegA16 w ra rb a => .extA16 .neg w ra rb a
  | .extNegInd rx d m ry => .extInd .neg rx d m ry
  | .extNegIm6 rx im => .extIm6 .neg rx im
  | .extNegBpIm6 rx im => .extBpIm6 .neg rx im
  | .extNegA6 rx a => .extA6 .neg rx a
  | .extXorReg ra rb => .extReg .xor ra rb
  | .extXorIm16 ra rb im => .extIm16 .xor ra rb im
  | .extXorA16 w ra rb a => .extA16 .xor w ra rb a
  | .extXorInd rx d m ry => .extInd .xor rx d m ry
  | .extXorIm6 rx im => .extIm6 .xor rx im
  | .extXorBpIm6 rx im => .extBpIm6 .xor rx im
  | .extXorA6 rx a => .extA6 .xor rx a
  | .extLoadReg ra rb => .extReg .load ra rb
  | .extLoadIm16 ra rb im => .extIm16 .load ra rb im
  | .extLoadA16 ra rb a => .extA16 .load false ra rb a
  | .extLoadInd rx d m ry => .extInd .load rx d m ry
  | .extLoadIm6 rx im => .extIm6 .load rx im
  | .extLoadBpIm6 rx im => .extBpIm6 .load rx im
  | .extLoadA6 rx a => .extA6 .load rx a
  | .extOrReg ra rb => .extReg .or ra rb
  | .extOrIm16 ra rb im => .extIm16 .or ra rb im
  | .extOrA16 w ra rb a => .extA16 .or w ra rb a
  | .extOrInd rx d m ry => .extInd .or rx d m ry
  | .extOrIm6 rx im => .extIm6 .or rx im
  | .extOrBpIm6 rx im => .extBpIm6 .or rx im
  | .extOrA6 rx a => .extA6 .or rx a
  | .extAndReg ra rb => .extReg .and ra rb
  | .extAndIm16 ra rb im => .extIm16 .and ra rb im
  | .extAndA16 w ra rb a => .extA16 .and w ra rb a
  | .extAndInd rx d m ry => .extInd .and rx d m ry
  | .extAndIm6 rx im => .extIm6 .and rx im
  | .extAndBpIm6 rx im => .extBpIm6 .and rx im
  | .extAndA6 rx a => .extA6 .and rx a
  | .extTestReg ra rb => .extReg .test ra rb
  | .extTestIm16 ra rb im => .extIm16 .test ra rb im
  | .extTestA16 w ra rb a => .extA16 .test w ra rb a
  | .extTestInd rx d m ry => .extInd .test rx d m ry
  | .extTestIm6 rx im => .extIm6 .test rx im
  | .extTestBpIm6 rx im => .extBpIm6 .test rx im
  | .extTestA6 rx a => .extA6 .test rx a
  | .extStoreA16 ra rb a => .extStoreA16 ra rb a
  | .extStoreInd rx d m ry => .extStoreInd rx d m ry
  | .extStoreBpIm6 rx im => .extStoreBpIm6 rx im
  | .extStoreA6 rx a => .extStoreA6 rx a
  | .extPush n rx rb => .extPush n rx rb
  | .extPop n fld rb => .extPop n fld rb
  | .retf => .retf
  | .reti => .reti
  | .gotoMr => .gotoMr
  | .brk => .brk
  | .callMr => .callMr
  | .divs => .divs
  | .divq => .divq
  | .exp => .exp
  | .nop => .nop

/-- The instruction of a shape; LOAD has no form that stores (R202). -/
def Shape.toInstr : Shape → Option Instr
  | .branch .cc back im => some (.jcc back im)
  | .branch .cs back im => some (.jcs back im)
  | .branch .sc back im => some (.jsc back im)
  | .branch .ss back im => some (.jss back im)
  | .branch .ne back im => some (.jne back im)
  | .branch .z back im => some (.jz back im)
  | .branch .pl back im => some (.jpl back im)
  | .branch .mi back im => some (.jmi back im)
  | .branch .be back im => some (.jbe back im)
  | .branch .nbe back im => some (.jnbe back im)
  | .branch .le back im => some (.jle back im)
  | .branch .nle back im => some (.jnle back im)
  | .branch .vc back im => some (.jvc back im)
  | .branch .vs back im => some (.jvs back im)
  | .branch .always back im => some (.jmp back im)
  | .dsIm6 im => some (.dsIm6 im)
  | .goto hi lo => some (.goto hi lo)
  | .extPrefix e => some (.extPrefix e)
  | .bitA16 .tst d off a => some (.tstbA16 d off a)
  | .bitA16 .set d off a => some (.setbA16 d off a)
  | .bitA16 .clr d off a => some (.clrbA16 d off a)
  | .bitA16 .inv d off a => some (.invbA16 d off a)
  | .aluBpIm6 .add rd im => some (.addBpIm6 rd im)
  | .aluIm6 .add rd im => some (.addIm6 rd im)
  | .aluInd .add rd d m rs => some (.addInd rd d m rs)
  | .aluReg .add rd rs => some (.addReg rd rs)
  | .aluIm16 .add rd rs im => some (.addIm16 rd rs im)
  | .aluA16 .add w rd rs a => some (.addA16 w rd rs a)
  | .aluShift .add k rd nn rs => some (.addShift k rd nn rs)
  | .aluA6 .add rd a => some (.addA6 rd a)
  | .aluBpIm6 .adc rd im => some (.adcBpIm6 rd im)
  | .aluIm6 .adc rd im => some (.adcIm6 rd im)
  | .aluInd .adc rd d m rs => some (.adcInd rd d m rs)
  | .aluReg .adc rd rs => some (.adcReg rd rs)
  | .aluIm16 .adc rd rs im => some (.adcIm16 rd rs im)
  | .aluA16 .adc w rd rs a => some (.adcA16 w rd rs a)
  | .aluShift .adc k rd nn rs => some (.adcShift k rd nn rs)
  | .aluA6 .adc rd a => some (.adcA6 rd a)
  | .aluBpIm6 .sub rd im => some (.subBpIm6 rd im)
  | .aluIm6 .sub rd im => some (.subIm6 rd im)
  | .aluInd .sub rd d m rs => some (.subInd rd d m rs)
  | .aluReg .sub rd rs => some (.subReg rd rs)
  | .aluIm16 .sub rd rs im => some (.subIm16 rd rs im)
  | .aluA16 .sub w rd rs a => some (.subA16 w rd rs a)
  | .aluShift .sub k rd nn rs => some (.subShift k rd nn rs)
  | .aluA6 .sub rd a => some (.subA6 rd a)
  | .aluBpIm6 .sbc rd im => some (.sbcBpIm6 rd im)
  | .aluIm6 .sbc rd im => some (.sbcIm6 rd im)
  | .aluInd .sbc rd d m rs => some (.sbcInd rd d m rs)
  | .aluReg .sbc rd rs => some (.sbcReg rd rs)
  | .aluIm16 .sbc rd rs im => some (.sbcIm16 rd rs im)
  | .aluA16 .sbc w rd rs a => some (.sbcA16 w rd rs a)
  | .aluShift .sbc k rd nn rs => some (.sbcShift k rd nn rs)
  | .aluA6 .sbc rd a => some (.sbcA6 rd a)
  | .aluBpIm6 .cmp rd im => some (.cmpBpIm6 rd im)
  | .aluIm6 .cmp rd im => some (.cmpIm6 rd im)
  | .aluInd .cmp rd d m rs => some (.cmpInd rd d m rs)
  | .aluReg .cmp rd rs => some (.cmpReg rd rs)
  | .aluIm16 .cmp rd rs im => some (.cmpIm16 rd rs im)
  | .aluA16 .cmp w rd rs a => some (.cmpA16 w rd rs a)
  | .aluShift .cmp k rd nn rs => some (.cmpShift k rd nn rs)
  | .aluA6 .cmp rd a => some (.cmpA6 rd a)
  | .aluBpIm6 .neg rd im => some (.negBpIm6 rd im)
  | .aluIm6 .neg rd im => some (.negIm6 rd im)
  | .aluInd .neg rd d m rs => some (.negInd rd d m rs)
  | .aluReg .neg rd rs => some (.negReg rd rs)
  | .aluIm16 .neg rd rs im => some (.negIm16 rd rs im)
  | .aluA16 .neg w rd rs a => some (.negA16 w rd rs a)
  | .aluShift .neg k rd nn rs => some (.negShift k rd nn rs)
  | .aluA6 .neg rd a => some (.negA6 rd a)
  | .aluBpIm6 .xor rd im => some (.xorBpIm6 rd im)
  | .aluIm6 .xor rd im => some (.xorIm6 rd im)
  | .aluInd .xor rd d m rs => some (.xorInd rd d m rs)
  | .aluReg .xor rd rs => some (.xorReg rd rs)
  | .aluIm16 .xor rd rs im => some (.xorIm16 rd rs im)
  | .aluA16 .xor w rd rs a => some (.xorA16 w rd rs a)
  | .aluShift .xor k rd nn rs => some (.xorShift k rd nn rs)
  | .aluA6 .xor rd a => some (.xorA6 rd a)
  | .aluBpIm6 .load rd im => some (.loadBpIm6 rd im)
  | .aluIm6 .load rd im => some (.loadIm6 rd im)
  | .aluInd .load rd d m rs => some (.loadInd rd d m rs)
  | .aluReg .load rd rs => some (.loadReg rd rs)
  | .aluIm16 .load rd rs im => some (.loadIm16 rd rs im)
  | .aluA16 .load false rd rs a => some (.loadA16 rd rs a)
  | .aluShift .load k rd nn rs => some (.loadShift k rd nn rs)
  | .aluA6 .load rd a => some (.loadA6 rd a)
  | .aluBpIm6 .or rd im => some (.orBpIm6 rd im)
  | .aluIm6 .or rd im => some (.orIm6 rd im)
  | .aluInd .or rd d m rs => some (.orInd rd d m rs)
  | .aluReg .or rd rs => some (.orReg rd rs)
  | .aluIm16 .or rd rs im => some (.orIm16 rd rs im)
  | .aluA16 .or w rd rs a => some (.orA16 w rd rs a)
  | .aluShift .or k rd nn rs => some (.orShift k rd nn rs)
  | .aluA6 .or rd a => some (.orA6 rd a)
  | .aluBpIm6 .and rd im => some (.andBpIm6 rd im)
  | .aluIm6 .and rd im => some (.andIm6 rd im)
  | .aluInd .and rd d m rs => some (.andInd rd d m rs)
  | .aluReg .and rd rs => some (.andReg rd rs)
  | .aluIm16 .and rd rs im => some (.andIm16 rd rs im)
  | .aluA16 .and w rd rs a => some (.andA16 w rd rs a)
  | .aluShift .and k rd nn rs => some (.andShift k rd nn rs)
  | .aluA6 .and rd a => some (.andA6 rd a)
  | .aluBpIm6 .test rd im => some (.testBpIm6 rd im)
  | .aluIm6 .test rd im => some (.testIm6 rd im)
  | .aluInd .test rd d m rs => some (.testInd rd d m rs)
  | .aluReg .test rd rs => some (.testReg rd rs)
  | .aluIm16 .test rd rs im => some (.testIm16 rd rs im)
  | .aluA16 .test w rd rs a => some (.testA16 w rd rs a)
  | .aluShift .test k rd nn rs => some (.testShift k rd nn rs)
  | .aluA6 .test rd a => some (.testA6 rd a)
  | .storeBpIm6 rd im => some (.storeBpIm6 rd im)
  | .storeInd rd d m rs => some (.storeInd rd d m rs)
  | .storeA16 rd rs a => some (.storeA16 rd rs a)
  | .storeA6 rd a => some (.storeA6 rd a)
  | .push rd n rs => some (.push rd n rs)
  | .pop rd n rs => some (.pop rd n rs)
  | .bitRegReg .tst rd rs => some (.tstbRegReg rd rs)
  | .bitRegOff .tst rd off => some (.tstbRegOff rd off)
  | .bitMemReg .tst rd d rs => some (.tstbMemReg rd d rs)
  | .bitMemOff .tst rd d off => some (.tstbMemOff rd d off)
  | .bitRegReg .set rd rs => some (.setbRegReg rd rs)
  | .bitRegOff .set rd off => some (.setbRegOff rd off)
  | .bitMemReg .set rd d rs => some (.setbMemReg rd d rs)
  | .bitMemOff .set rd d off => some (.setbMemOff rd d off)
  | .bitRegReg .clr rd rs => some (.clrbRegReg rd rs)
  | .bitRegOff .clr rd off => some (.clrbRegOff rd off)
  | .bitMemReg .clr rd d rs => some (.clrbMemReg rd d rs)
  | .bitMemOff .clr rd d off => some (.clrbMemOff rd d off)
  | .bitRegReg .inv rd rs => some (.invbRegReg rd rs)
  | .bitRegOff .inv rd off => some (.invbRegOff rd off)
  | .bitMemReg .inv rd d rs => some (.invbMemReg rd d rs)
  | .bitMemOff .inv rd d off => some (.invbMemOff rd d off)
  | .shift16 .asr rd rs => some (.asr16 rd rs)
  | .shift16 .asrOr rd rs => some (.asrOr16 rd rs)
  | .shift16 .lsl rd rs => some (.lsl16 rd rs)
  | .shift16 .lslOr rd rs => some (.lslOr16 rd rs)
  | .shift16 .lsr rd rs => some (.lsr16 rd rs)
  | .shift16 .lsrOr rd rs => some (.lsrOr16 rd rs)
  | .shift16 .rol rd rs => some (.rol16 rd rs)
  | .shift16 .ror rd rs => some (.ror16 rd rs)
  | .mul .uu rd rs => some (.mulUu rd rs)
  | .mul .us rd rs => some (.mulUs rd rs)
  | .mul .ss rd rs => some (.mulSs rd rs)
  | .muls .uu rd n rs => some (.mulsUu rd n rs)
  | .muls .us rd n rs => some (.mulsUs rd n rs)
  | .muls .ss rd n rs => some (.mulsSs rd n rs)
  | .int f i => some (.int f i)
  | .firMov off => some (.firMov off)
  | .fraction on => some (.fraction on)
  | .irq on => some (.irq on)
  | .secbank on => some (.secbank on)
  | .fiq on => some (.fiq on)
  | .irqnest on => some (.irqnest on)
  | .rsEqDs rs => some (.rsEqDs rs)
  | .dsEqRs rs => some (.dsEqRs rs)
  | .rsEqFr rs => some (.rsEqFr rs)
  | .frEqRs rs => some (.frEqRs rs)
  | .call hi lo => some (.call hi lo)
  | .extReg .add ra rb => some (.extAddReg ra rb)
  | .extIm16 .add ra rb im => some (.extAddIm16 ra rb im)
  | .extA16 .add w ra rb a => some (.extAddA16 w ra rb a)
  | .extInd .add rx d m ry => some (.extAddInd rx d m ry)
  | .extIm6 .add rx im => some (.extAddIm6 rx im)
  | .extBpIm6 .add rx im => some (.extAddBpIm6 rx im)
  | .extA6 .add rx a => some (.extAddA6 rx a)
  | .extReg .adc ra rb => some (.extAdcReg ra rb)
  | .extIm16 .adc ra rb im => some (.extAdcIm16 ra rb im)
  | .extA16 .adc w ra rb a => some (.extAdcA16 w ra rb a)
  | .extInd .adc rx d m ry => some (.extAdcInd rx d m ry)
  | .extIm6 .adc rx im => some (.extAdcIm6 rx im)
  | .extBpIm6 .adc rx im => some (.extAdcBpIm6 rx im)
  | .extA6 .adc rx a => some (.extAdcA6 rx a)
  | .extReg .sub ra rb => some (.extSubReg ra rb)
  | .extIm16 .sub ra rb im => some (.extSubIm16 ra rb im)
  | .extA16 .sub w ra rb a => some (.extSubA16 w ra rb a)
  | .extInd .sub rx d m ry => some (.extSubInd rx d m ry)
  | .extIm6 .sub rx im => some (.extSubIm6 rx im)
  | .extBpIm6 .sub rx im => some (.extSubBpIm6 rx im)
  | .extA6 .sub rx a => some (.extSubA6 rx a)
  | .extReg .sbc ra rb => some (.extSbcReg ra rb)
  | .extIm16 .sbc ra rb im => some (.extSbcIm16 ra rb im)
  | .extA16 .sbc w ra rb a => some (.extSbcA16 w ra rb a)
  | .extInd .sbc rx d m ry => some (.extSbcInd rx d m ry)
  | .extIm6 .sbc rx im => some (.extSbcIm6 rx im)
  | .extBpIm6 .sbc rx im => some (.extSbcBpIm6 rx im)
  | .extA6 .sbc rx a => some (.extSbcA6 rx a)
  | .extReg .cmp ra rb => some (.extCmpReg ra rb)
  | .extIm16 .cmp ra rb im => some (.extCmpIm16 ra rb im)
  | .extA16 .cmp w ra rb a => some (.extCmpA16 w ra rb a)
  | .extInd .cmp rx d m ry => some (.extCmpInd rx d m ry)
  | .extIm6 .cmp rx im => some (.extCmpIm6 rx im)
  | .extBpIm6 .cmp rx im => some (.extCmpBpIm6 rx im)
  | .extA6 .cmp rx a => some (.extCmpA6 rx a)
  | .extReg .neg ra rb => some (.extNegReg ra rb)
  | .extIm16 .neg ra rb im => some (.extNegIm16 ra rb im)
  | .extA16 .neg w ra rb a => some (.extNegA16 w ra rb a)
  | .extInd .neg rx d m ry => some (.extNegInd rx d m ry)
  | .extIm6 .neg rx im => some (.extNegIm6 rx im)
  | .extBpIm6 .neg rx im => some (.extNegBpIm6 rx im)
  | .extA6 .neg rx a => some (.extNegA6 rx a)
  | .extReg .xor ra rb => some (.extXorReg ra rb)
  | .extIm16 .xor ra rb im => some (.extXorIm16 ra rb im)
  | .extA16 .xor w ra rb a => some (.extXorA16 w ra rb a)
  | .extInd .xor rx d m ry => some (.extXorInd rx d m ry)
  | .extIm6 .xor rx im => some (.extXorIm6 rx im)
  | .extBpIm6 .xor rx im => some (.extXorBpIm6 rx im)
  | .extA6 .xor rx a => some (.extXorA6 rx a)
  | .extReg .load ra rb => some (.extLoadReg ra rb)
  | .extIm16 .load ra rb im => some (.extLoadIm16 ra rb im)
  | .extA16 .load false ra rb a => some (.extLoadA16 ra rb a)
  | .extInd .load rx d m ry => some (.extLoadInd rx d m ry)
  | .extIm6 .load rx im => some (.extLoadIm6 rx im)
  | .extBpIm6 .load rx im => some (.extLoadBpIm6 rx im)
  | .extA6 .load rx a => some (.extLoadA6 rx a)
  | .extReg .or ra rb => some (.extOrReg ra rb)
  | .extIm16 .or ra rb im => some (.extOrIm16 ra rb im)
  | .extA16 .or w ra rb a => some (.extOrA16 w ra rb a)
  | .extInd .or rx d m ry => some (.extOrInd rx d m ry)
  | .extIm6 .or rx im => some (.extOrIm6 rx im)
  | .extBpIm6 .or rx im => some (.extOrBpIm6 rx im)
  | .extA6 .or rx a => some (.extOrA6 rx a)
  | .extReg .and ra rb => some (.extAndReg ra rb)
  | .extIm16 .and ra rb im => some (.extAndIm16 ra rb im)
  | .extA16 .and w ra rb a => some (.extAndA16 w ra rb a)
  | .extInd .and rx d m ry => some (.extAndInd rx d m ry)
  | .extIm6 .and rx im => some (.extAndIm6 rx im)
  | .extBpIm6 .and rx im => some (.extAndBpIm6 rx im)
  | .extA6 .and rx a => some (.extAndA6 rx a)
  | .extReg .test ra rb => some (.extTestReg ra rb)
  | .extIm16 .test ra rb im => some (.extTestIm16 ra rb im)
  | .extA16 .test w ra rb a => some (.extTestA16 w ra rb a)
  | .extInd .test rx d m ry => some (.extTestInd rx d m ry)
  | .extIm6 .test rx im => some (.extTestIm6 rx im)
  | .extBpIm6 .test rx im => some (.extTestBpIm6 rx im)
  | .extA6 .test rx a => some (.extTestA6 rx a)
  | .extStoreA16 ra rb a => some (.extStoreA16 ra rb a)
  | .extStoreInd rx d m ry => some (.extStoreInd rx d m ry)
  | .extStoreBpIm6 rx im => some (.extStoreBpIm6 rx im)
  | .extStoreA6 rx a => some (.extStoreA6 rx a)
  | .extPush n rx rb => some (.extPush n rx rb)
  | .extPop n fld rb => some (.extPop n fld rb)
  | .retf => some .retf
  | .reti => some .reti
  | .gotoMr => some .gotoMr
  | .brk => some .brk
  | .callMr => some .callMr
  | .divs => some .divs
  | .divq => some .divq
  | .exp => some .exp
  | .nop => some .nop
  | .aluA16 .load true _ _ _ => none
  | .extA16 .load true _ _ _ => none

/-- The decoder: the instruction that three consecutive words begin with (one of one or two words ignores the rest). -/
def decode (p : Params) (w0 w1 w2 : Word) : Except Unassigned Instr :=
  match decodeFields p (opField w0) (rdField w0) (modeField w0) (lowField w0) w1 w2 with
  | .error why => .error why
  | .ok sh =>
    if sh.availableIn p.ver then
      match sh.toInstr with
      | some i => .ok i
      | none => .error .form
    else .error .version

/-- The length of an instruction in words, its prefix included (R120, R410). -/
def Shape.words : Shape → Nat
  | .goto _ _ | .call _ _ | .bitA16 _ _ _ _ | .aluIm16 _ _ _ _ | .aluA16 _ _ _ _ _
  | .storeA16 _ _ _ | .extPrefix _ | .extReg _ _ _ | .extInd _ _ _ _ _ | .extIm6 _ _ _ | .extBpIm6 _ _ _
  | .extA6 _ _ _ | .extStoreInd _ _ _ _ | .extStoreBpIm6 _ _ | .extStoreA6 _ _ | .extPush _ _ _
  | .extPop _ _ _ => 2
  | .extIm16 _ _ _ _ | .extA16 _ _ _ _ _ | .extStoreA16 _ _ _ => 3
  | .retf | .reti | .branch _ _ _ | .dsIm6 _ | .gotoMr | .aluBpIm6 _ _ _ | .aluIm6 _ _ _ | .aluInd _ _ _ _ _
  | .aluReg _ _ _ | .aluShift _ _ _ _ _ | .aluA6 _ _ _ | .storeBpIm6 _ _ | .storeInd _ _ _ _ | .storeA6 _ _
  | .push _ _ _ | .pop _ _ _ | .bitRegReg _ _ _ | .bitRegOff _ _ _ | .bitMemReg _ _ _ _ | .bitMemOff _ _ _ _
  | .shift16 _ _ _ | .mul _ _ _ | .muls _ _ _ _ | .int _ _ | .firMov _ | .fraction _ | .irq _ | .secbank _
  | .fiq _ | .irqnest _ | .brk | .callMr | .divs | .divq | .exp | .nop | .rsEqDs _ | .dsEqRs _ | .rsEqFr _
  | .frEqRs _ => 1

/-- The length of an instruction in words (R120, R410). -/
def Instr.words (i : Instr) : Nat := i.shape.words

/-! ### The encoder -/

/-- A word of the mode group with the don't-care bits 11:9 zero (R133). -/
def modeWord (lo : BitVec 6) : Word := mkWord 0b1111#4 0b000#3 0b101#3 lo

/-- The words after the prefix of the `Ra`, `Rb` rows: `lo2` is bits 5:4 and `m2` bits 7:6 (R138). -/
def extWordAB (op : BitVec 4) (ra : GReg) (m2 lo2 : BitVec 2) (rb : GReg) : Word :=
  mkWord op ra.lo (ra.hi ++ m2) (lo2 ++ rb.hi ++ rb.lo)

/-- The words of a shape, first word first (R125, R130 to R138; don't-care bits 0, R141). -/
def Shape.encode (p : Params) : Shape → List Word
  | .retf => [0x9A90#16]
  | .reti => [0x9A98#16]
  | .branch c back im => [mkWord c.num 0b111#3 (0b00#2 ++ bit back) im]
  | .dsIm6 im => [mkWord 0b1111#4 0b111#3 0b000#3 im]
  | .goto hi lo => [mkWord 0b1111#4 0b111#3 0b010#3 hi, lo]
  | .gotoMr => [mkWord 0b1111#4 0b111#3 0b011#3 0b000000#6]
  | .extPrefix e => [p.prefixWord, e]
  | .bitA16 op d off a => [mkWord 0b1111#4 (0b0#1 ++ bit d ++ 0b1#1) 0b001#3 (op.num ++ off), a]
  | .aluBpIm6 op rd im => [mkWord (p.aluNum op) rd.num 0b000#3 im]
  | .aluIm6 op rd im => [mkWord (p.aluNum op) rd.num 0b001#3 im]
  | .aluInd op rd d m rs => [mkWord (p.aluNum op) rd.num 0b011#3 (bit d ++ m.num ++ rs.num)]
  | .aluReg op rd rs => [mkWord (p.aluNum op) rd.num 0b100#3 (0b000#3 ++ rs.num)]
  | .aluIm16 op rd rs im => [mkWord (p.aluNum op) rd.num 0b100#3 (0b001#3 ++ rs.num), im]
  | .aluA16 op w rd rs a => [mkWord (p.aluNum op) rd.num 0b100#3 (0b01#2 ++ bit w ++ rs.num), a]
  | .aluShift op k rd nn rs => [mkWord (p.aluNum op) rd.num k.mode (k.low ++ nn ++ rs.num)]
  | .aluA6 op rd a => [mkWord (p.aluNum op) rd.num 0b111#3 a]
  | .storeBpIm6 rd im => [mkWord 0b1101#4 rd.num 0b000#3 im]
  | .storeInd rd d m rs => [mkWord 0b1101#4 rd.num 0b011#3 (bit d ++ m.num ++ rs.num)]
  | .storeA16 rd rs a => [mkWord 0b1101#4 rd.num 0b100#3 (0b01#2 ++ p.storeBit ++ rs.num), a]
  | .storeA6 rd a => [mkWord 0b1101#4 rd.num 0b111#3 a]
  | .push rd n rs => [mkWord 0b1101#4 rd.num 0b010#3 (n ++ rs.num)]
  | .pop rd n rs => [mkWord 0b1001#4 rd.num 0b010#3 (n ++ rs.num)]
  | .bitRegReg op rd rs => [mkWord 0b1110#4 rd.num 0b000#3 (op.num ++ 0b0#1 ++ rs.num)]
  | .bitRegOff op rd off => [mkWord 0b1110#4 rd.num 0b001#3 (op.num ++ off)]
  | .bitMemReg op rd d rs => [mkWord 0b1110#4 rd.num (0b10#2 ++ bit d) (op.num ++ 0b0#1 ++ rs.num)]
  | .bitMemOff op rd d off => [mkWord 0b1110#4 rd.num (0b11#2 ++ bit d) (op.num ++ off)]
  | .shift16 k rd rs =>
    [mkWord 0b1110#4 rd.num (0b10#2 ++ k.num.extractLsb' 2 1) (k.num.extractLsb' 0 2 ++ 0b1#1 ++ rs.num)]
  | .mul k rd rs => [mkWord (0b111#3 ++ k.sRs) rd.num (k.sRd ++ 0b00#2) (0b001#3 ++ rs.num)]
  | .muls k rd n rs =>
    [mkWord (0b111#3 ++ k.sRs) rd.num (k.sRd ++ 0b1#1 ++ n.extractLsb' 3 1) (n.extractLsb' 0 3 ++ rs.num)]
  | .int f i => [modeWord (0b0000#4 ++ bit f ++ bit i)]
  | .firMov off => [modeWord (0b00010#5 ++ bit off)]
  | .fraction on => [modeWord (0b00011#5 ++ bit on)]
  | .irq on => [modeWord (0b00100#5 ++ bit on)]
  | .secbank on => [modeWord (0b00101#5 ++ bit on)]
  | .fiq on => [modeWord (0b0011#4 ++ bit on ++ 0b0#1)]
  | .irqnest on => [modeWord (0b0011#4 ++ bit on ++ 0b1#1)]
  | .brk => [modeWord 0b100000#6]
  | .callMr => [modeWord 0b100001#6]
  | .divs => [modeWord 0b100010#6]
  | .divq => [modeWord 0b100011#6]
  | .exp => [modeWord 0b100100#6]
  | .nop => [modeWord 0b100101#6]
  | .rsEqDs rs => [mkWord 0b1111#4 0b000#3 0b000#3 (0b100#3 ++ rs.num)]
  | .dsEqRs rs => [mkWord 0b1111#4 0b000#3 0b000#3 (0b101#3 ++ rs.num)]
  | .rsEqFr rs => [mkWord 0b1111#4 0b000#3 0b000#3 (0b110#3 ++ rs.num)]
  | .frEqRs rs => [mkWord 0b1111#4 0b000#3 0b000#3 (0b111#3 ++ rs.num)]
  | .call hi lo => [mkWord 0b1111#4 0b000#3 0b001#3 hi, lo]
  | .extReg op ra rb => [p.prefixWord, extWordAB (p.aluNum op) ra 0b00#2 0b00#2 rb]
  | .extIm16 op ra rb im => [p.prefixWord, extWordAB (p.aluNum op) ra 0b01#2 0b00#2 rb, im]
  | .extA16 op w ra rb a => [p.prefixWord, extWordAB (p.aluNum op) ra 0b01#2 (0b1#1 ++ bit w) rb, a]
  | .extInd op rx d m ry => [p.prefixWord, mkWord (p.aluNum op) rx.num 0b010#3 (bit d ++ m.num ++ ry.num)]
  | .extIm6 op rx im => [p.prefixWord, mkWord (p.aluNum op) rx.num 0b110#3 im]
  | .extBpIm6 op rx im => [p.prefixWord, mkWord (p.aluNum op) rx.num 0b011#3 im]
  | .extA6 op rx a => [p.prefixWord, mkWord (p.aluNum op) rx.num 0b111#3 a]
  | .extStoreA16 ra rb a => [p.prefixWord, extWordAB 0b1101#4 ra 0b01#2 (0b1#1 ++ p.storeBit) rb, a]
  | .extStoreInd rx d m ry => [p.prefixWord, mkWord 0b1101#4 rx.num 0b010#3 (bit d ++ m.num ++ ry.num)]
  | .extStoreBpIm6 rx im => [p.prefixWord, mkWord 0b1101#4 rx.num 0b011#3 im]
  | .extStoreA6 rx a => [p.prefixWord, mkWord 0b1101#4 rx.num 0b111#3 a]
  | .extPush n rx rb => [p.prefixWord, mkWord (0b1#1 ++ n) rx.num 0b000#3 (0b10#2 ++ rb.hi ++ rb.lo)]
  | .extPop n fld rb => [p.prefixWord, mkWord (0b0#1 ++ n) fld 0b000#3 (0b10#2 ++ rb.hi ++ rb.lo)]

/-- The words of an instruction, first word first. -/
def encode (p : Params) (i : Instr) : List Word := i.shape.encode p

/-- The decoder on a list of words; words past the end read 0. -/
def decodeWords (p : Params) (ws : List Word) : Except Unassigned Instr :=
  decode p (ws.getD 0 0) (ws.getD 1 0) (ws.getD 2 0)

/-! ### The host's entry points -/

/-- Word k of an instruction given as one number, the first word in its low 16 bits. -/
def tableWord (w k : Nat) : Word := BitVec.ofNat 16 (w / 2 ^ (16 * k))

/-- The instruction the decoder reads from the bits `w` of a table row of `nbits` bits; the bits above are 0. The
parameters are those of `State.reset` (version 2.0, which has a row of every mnemonic; log 1). -/
def decodeTableWord (nbits w : Nat) : Option Instr :=
  let v := w % 2 ^ nbits
  match decode Params.default (tableWord v 0) (tableWord v 1) (tableWord v 2) with
  | .ok i => some i
  | .error _ => none

/-- Parameter `DECODE_13`: the abstract decoder of the instructions only [1.3] has, on the first word, which fixes the
length (R6, R120, R139). It has no body: the source prints none of their bits (log 15). -/
opaque Config.decode13 : Word → Option Instr13

/-- The instruction with its immediate or address from the second word (R120, R139, R297, R386, R387). -/
def Instr13.withSecond (i : Instr13) (w1 : Word) : Instr13 :=
  match i with
  | .storeIndImm w m x _ => .storeIndImm w m x w1
  | .storeBpImm w im _ => .storeBpImm w im w1
  | .storeIdxImm w m x _ => .storeIdxImm w m x w1
  | .bitA16 op d off _ => .bitA16 op d off w1
  | .loadInd w rd m x => .loadInd w rd m x
  | .storeInd w m x rd => .storeInd w m x rd
  | .loadBp w rd im => .loadBp w rd im
  | .storeBp w im rd => .storeBp w im rd
  | .loadIdx w rd m x => .loadIdx w rd m x
  | .storeIdx w m x rd => .storeIdx w m x rd
  | .rsEqSs rs => .rsEqSs rs
  | .ssEqRs rs => .ssEqRs rs
  | .mdsEqR3 => .mdsEqR3
  | .r3EqMds => .r3EqMds
  | .divuu => .divuu
  | .divss => .divss

/-- The length in words of an instruction only [1.3] has: two for the store-immediate forms and `BIT_OP {D:}[A16]`
(R120, R139). -/
def Instr13.words : Instr13 → Nat
  | .storeIndImm _ _ _ _ => 2
  | .storeBpImm _ _ _ => 2
  | .storeIdxImm _ _ _ _ => 2
  | .bitA16 _ _ _ _ => 2
  | .loadInd _ _ _ _ => 1
  | .storeInd _ _ _ _ => 1
  | .loadBp _ _ _ => 1
  | .storeBp _ _ _ => 1
  | .loadIdx _ _ _ _ => 1
  | .storeIdx _ _ _ _ => 1
  | .rsEqSs _ => 1
  | .ssEqRs _ => 1
  | .mdsEqR3 => 1
  | .r3EqMds => 1
  | .divuu => 1
  | .divss => 1

end Sys2Proof
end

