-- ==== Sys2Proof/Machine/State.lean ====
section
/-! DEFINITION. The machine's state as plain data: every piece of state the spec names (spec 10_state.md R20 to R46,
60_exceptions.md R458, R468, R490), the state after reset (R47, R510), and the ways a step can stop. -/

namespace Sys2Proof.Machine

open Sys2Proof

/-- Memory: (byte key, byte) pairs, keys strictly rising, no byte 0 listed (Ops.lean, `Memory.wf`). The low byte of word
`a` has key 2a and the high byte 2a + 1 (R70, R96; log 5). -/
abbrev Memory := List Host.Cell

/-- The 16-bit registers but SR and PC: the core registers (R20), the secondary bank (R30), the extend registers (R44). -/
structure Regs where
  sp : Word
  r1 : Word
  r2 : Word
  r3 : Word
  r4 : Word
  bp : Word
  /-- SR1 [1.2+]. -/
  s1 : Word
  /-- SR2 [1.2+]. -/
  s2 : Word
  /-- SR3 [1.2+]. -/
  s3 : Word
  /-- SR4 [1.2+]. -/
  s4 : Word
  /-- R8 to R15 [2.0]. -/
  x8 : Word
  x9 : Word
  x10 : Word
  x11 : Word
  x12 : Word
  x13 : Word
  x14 : Word
  x15 : Word
  deriving DecidableEq, Repr

/-- SR by its fields (R24). -/
structure Status where
  ds : Page
  n : Bool
  z : Bool
  s : Bool
  c : Bool
  cs : Page
  deriving DecidableEq, Repr

/-- FR by its fields (R31), but for SB, which is a view of the shift buffer in use (R36). In [1.0] and [1.1] `fir`, `f`
and `i` are the mode bits without a register, and the others have no effect (R35, R37, R46; log 44). -/
structure FlagReg where
  /-- FR[15]: AdE in [1.3] (R41), no effect in [1.2] and [2.0] (D15). -/
  top : Bool
  /-- FR[14] (R32). -/
  aq : Bool
  /-- FR[13] (R33). -/
  bnk : Bool
  /-- FR[12] (R34). -/
  fra : Bool
  /-- FR[11], false = FIR_MOVE ON (R35). -/
  fir : Bool
  /-- FR[6], FIQ enable (R37). -/
  f : Bool
  /-- FR[5], IRQ enable (R38). -/
  i : Bool
  /-- FR[4] (R39). -/
  ine : Bool
  /-- FR[3:0] (R40). -/
  pri : BitVec 4
  deriving DecidableEq, Repr

/-- The three shift buffers (R36). -/
structure ShiftBuffers where
  user : BitVec 4
  irq : BitVec 4
  fiq : BitVec 4
  deriving DecidableEq, Repr

/-- MDS of [1.3] by its two fields; the other bits read 0 (R43, D15). -/
structure MulSegs where
  /-- MDS[13:8], the page of Rd. -/
  segD : Page
  /-- MDS[5:0], the page of Rs. -/
  segS : Page
  deriving DecidableEq, Repr

/-- A level in service (R468). -/
inductive Level where
  | brk | fiq | irq
  deriving DecidableEq, Repr

/-- The levels of the input pins, which the environment sets between steps and the step never changes (R107 to R109,
R450, R458; log 18). -/
structure Pins where
  /-- The reset request. -/
  reset : Bool
  /-- The FIQ request. -/
  fiq : Bool
  /-- The IRQ request [1.2+]. -/
  irq : Bool
  /-- IRQS[2:0] [1.2+]. -/
  irqs : BitVec 3
  /-- The eight IRQ request lines of [1.0] and [1.1]; bit 7 is UART IRQ. -/
  irqLines : BitVec 8
  /-- DMAQ [1.2][1.3]. -/
  dmaq : Bool
  /-- SLEEP [1.2][1.3]. -/
  sleep : Bool
  /-- PD [1.2][1.3]. -/
  pd : Bool
  /-- HDUMPROM [1.2][1.3]. -/
  hdumprom : Bool
  deriving DecidableEq, Repr

/-- One access of a DMA master (R111, R490). -/
inductive DmaAccess where
  | read (a : Addr)
  | write (a : Addr) (v : Word)
  deriving DecidableEq, Repr

/-- The machine's state. Between steps `{status.cs, pc}` is the address of the next instruction; while an instruction
runs it is `nextpc`, which is what reads of PC and of SR.CS see (R28, R48). -/
structure State where
  /-- The parameters of R6, which no step changes. -/
  cfg : Params
  pins : Pins
  regs : Regs
  /-- SR (R6). -/
  status : Status
  /-- PC (R7). -/
  pc : Word
  /-- FR [1.2+]; the mode bits of [1.0] and [1.1]. -/
  flags : FlagReg
  sb : ShiftBuffers
  /-- SS [1.3] (R42). -/
  ss : Page
  /-- MDS [1.3] (R43). -/
  mds : MulSegs
  /-- SVC, the levels in service, the last pushed first (R468). -/
  svc : List Level
  /-- DMACK [1.2][1.3] (R111). -/
  dmack : Bool
  /-- The model's own: no request is looked at before the next instruction (R459; log 19). -/
  hold : Bool
  /-- The model's own [1.2][1.3]: what a DMA master will do, one list for each point between two accesses of the core, the
  next point first. The environment sets it between steps; each access of the core takes one (R98, R111, R490; log 41). -/
  dma : List (List DmaAccess)
  /-- The model's own: the accesses the devices of the memory map have seen, the last one first (R113; log 6). -/
  devLog : List DeviceAccess
  /-- The model's own: how many free values have been drawn (U1; log 28). -/
  freeIdx : Nat
  mem : Memory
  deriving DecidableEq, Repr

/-- No event of this hardware stops the machine: BREAK and AdE divert it (R450, R453), so no step ends in a fault. -/
inductive Fault where
  deriving DecidableEq, Repr

/-- Why a step answers no next state: the spec's `refuse` (R9), where the sources assign no behaviour. Each is safe: the
model stops where the hardware goes on in a way nobody describes. -/
inductive Refusal where
  /-- An instruction without a meaning; raised by no arm of this model. Safe. -/
  | notModelled (mnemonic : String)
  /-- A word that is no instruction (R144, D2): raised by the step. Safe. -/
  | unassigned (why : Unassigned)
  /-- A prefix before a word of no ext row (R410, D2): raised by `extPrefix`. Safe. -/
  | extUnassigned
  /-- A PUSH or POP set that leaves the register file or is empty (R172, R173, R417, R418, D8): raised by PUSH and POP.
  Safe. -/
  | pushPopSet
  /-- The pointer register in the PUSH or POP set (D8): raised by PUSH and POP. Safe. -/
  | pointerInSet
  /-- A pointer update on the register of the other operand, or on SR or PC (R87, R392, R413, D17): raised by the
  `{D:}[Rs@]` forms and the byte modes. Safe. -/
  | pointerConflict
  /-- ASROR, LSROR with Rd other than R4, LSLOR with Rd other than R3 (R246, D9): raised by them. Safe. -/
  | orShiftDest
  /-- A MUL of [1.0] or [1.1] on a register outside R1 to R4 and BP (R260, D26): raised by MUL. Safe. -/
  | mulOperand
  /-- The register operands MULS excludes (R266, D26): raised by MULS. Safe. -/
  | mulsOperand
  /-- A special register read into PC (R319, D27): raised by `Rs = DS`, `Rs = FR`, `Rs = SS`. Safe. -/
  | specialToPc
  /-- [2.0] A store to one of the three words after the instruction, which may have been fetched already (R105, R517, D5):
  raised by the instructions that store. Safe. -/
  | storeAhead
  deriving DecidableEq, Repr

/-- What a meaning answers. -/
abbrev Out := Host.Outcome State Fault Refusal

/-- The state after reset (R47, R510). FR.PRI = 8, FIR ON and the other FR fields 0 are stated; the registers without a
stated value are 0 (log 2), the parameters those of `Params.default` (log 1), the pins inactive (log 18), the memory
lists nothing (log 4), no DMA access is ahead and no device has been accessed, and PC is the vector word of that memory,
0 (log 7). -/
def State.reset : State :=
  { cfg := Params.default
    pins := { reset := false, fiq := false, irq := false, irqs := 0, irqLines := 0, dmaq := false, sleep := false,
              pd := false, hdumprom := false }
    regs := { sp := 0, r1 := 0, r2 := 0, r3 := 0, r4 := 0, bp := 0, s1 := 0, s2 := 0, s3 := 0, s4 := 0,
              x8 := 0, x9 := 0, x10 := 0, x11 := 0, x12 := 0, x13 := 0, x14 := 0, x15 := 0 }
    status := { ds := 0, n := false, z := false, s := false, c := false, cs := 0 }
    pc := 0
    flags := { top := false, aq := false, bnk := false, fra := false, fir := false, f := false, i := false,
               ine := false, pri := 8 }
    sb := { user := 0, irq := 0, fiq := 0 }
    ss := 0
    mds := { segD := 0, segS := 0 }
    svc := []
    dmack := false
    hold := false
    dma := []
    devLog := []
    freeIdx := 0
    mem := [] }

end Sys2Proof.Machine
end

