-- ==== Sys2Proof/Machine/Ops.lean ====
section
/-! DEFINITION. The named operations over memory and registers: bytes and words of memory, the registers through the
bank selection, SR, FR and MDS as words, the sequencing of PC, the stack, and taking an exception and returning from
one (spec 10_state.md, 20_memory.md, 46_control_transfer.md R330 to R334, 60_exceptions.md R454 to R473). -/

namespace Sys2Proof.Machine

open Sys2Proof

/-! ### Memory (R70, R96) -/

/-- What a byte nothing has written reads as. DESIGN CHOICE 0 (log 4). -/
def Memory.blank : BitVec 8 := 0

/-- The byte with key `k`. -/
def Memory.readByte (m : Memory) (k : Nat) : BitVec 8 :=
  match m with
  | [] => Memory.blank
  | (a, b) :: t => if a = k then b else Memory.readByte t k

/-- Write one byte; a byte equal to what an unlisted key reads as is not listed. -/
def Memory.writeByte (m : Memory) (k : Nat) (v : BitVec 8) : Memory :=
  match m with
  | [] => if v = Memory.blank then [] else [(k, v)]
  | (a, b) :: t =>
    if a < k then (a, b) :: Memory.writeByte t k v
    else if a = k then (if v = Memory.blank then t else (k, v) :: t)
    else if v = Memory.blank then (a, b) :: t
    else (k, v) :: (a, b) :: t

/-- The canonical form from key `lo` on: keys rise from `lo`, are below 2^23, and no byte is the blank one. -/
def Memory.wfFrom (lo : Nat) (m : Memory) : Bool :=
  match m with
  | [] => true
  | (a, b) :: t => decide (lo ≤ a) && decide (a < 2 ^ 23) && decide (b ≠ Memory.blank) && Memory.wfFrom (a + 1) t

/-- The canonical form of memory. -/
def Memory.wf (m : Memory) : Bool := Memory.wfFrom 0 m

/-- MemRead(a, 1): the word at a word address (R70). -/
def Memory.readWord (m : Memory) (a : Addr) : Word :=
  Memory.readByte m (2 * a.toNat + 1) ++ Memory.readByte m (2 * a.toNat)

/-- MemWrite(a, 1, v) (R70). -/
def Memory.writeWord (m : Memory) (a : Addr) (v : Word) : Memory :=
  Memory.writeByte (Memory.writeByte m (2 * a.toNat) (v.extractLsb' 0 8)) (2 * a.toNat + 1) (v.extractLsb' 8 8)

/-! ### The memory map, devices and DMA (R98, R100, R111, R113, R490) -/

/-- What the bus reaches: memory and the accesses the devices have seen. -/
structure Bus where
  mem : Memory
  devLog : List DeviceAccess
  deriving DecidableEq, Repr

/-- A word read: a device notes it, nothing else changes. -/
def Bus.noteRead (p : Params) (b : Bus) (a : Addr) : Bus :=
  if p.backing a = .device then { b with devLog := .read a :: b.devLog } else b

/-- A word write: RAM takes it, a device notes it, ROM and unbacked addresses ignore it. -/
def Bus.write (p : Params) (b : Bus) (a : Addr) (v : Word) : Bus :=
  match p.backing a with
  | .ram => { b with mem := Memory.writeWord b.mem a v }
  | .device => { b with devLog := .write a v :: b.devLog }
  | .rom | .unbacked _ => b

/-- The word address of a byte address, EBA[22:1] (R92). -/
abbrev wordOf (eba : BitVec 23) : Addr := eba.extractLsb' 1 22

/-- A byte write of [1.3]: only the enabled byte (R96). -/
def Bus.writeByte (p : Params) (b : Bus) (eba : BitVec 23) (v : BitVec 8) : Bus :=
  match p.backing (wordOf eba) with
  | .ram => { b with mem := Memory.writeByte b.mem eba.toNat v }
  | .device => { b with devLog := .writeByte eba v :: b.devLog }
  | .rom | .unbacked _ => b

/-- One access of a DMA master. -/
def Bus.dmaAccess (p : Params) (b : Bus) (x : DmaAccess) : Bus :=
  match x with
  | .read a => b.noteRead p a
  | .write a v => b.write p a v

/-- The versions with the pins DMAQ, SLEEP, PD and HDUMPROM: [1.2] and [1.3] (R107, R108, R503). -/
def hasHoldPins (v : Version) : Bool :=
  match v with
  | .v12 => true
  | .v13 => true
  | .v10 => false
  | .v11 => false
  | .v20 => false

/-- The bus of the state. -/
def State.bus (s : State) : Bus := { mem := s.mem, devLog := s.devLog }

/-- What a DMA master does before the next access of the core: nothing in the versions without DMA (R111). -/
def State.dmaNow (s : State) : List DmaAccess := if hasHoldPins s.cfg.ver then s.dma.headD [] else []

/-- A point between two accesses of the core: the DMA master's accesses of this point happen (R98, R111, R490; log 41). -/
def State.dmaPoint (s : State) : State :=
  let b := s.dmaNow.foldl (Bus.dmaAccess s.cfg) s.bus
  { s with
    mem := b.mem
    devLog := b.devLog
    dma := if hasHoldPins s.cfg.ver then s.dma.tail else s.dma }

/-- The word a read of an address gives (R70, R100). -/
def State.readWord (s : State) (a : Addr) : Word :=
  match s.cfg.backing a with
  | .ram | .rom => Memory.readWord s.mem a
  | .unbacked v => v
  | .device => Config.deviceRead s.devLog a

/-- The byte a read of a byte address of [1.3] gives: bit 0 selects the low or the high byte of the word (R96). -/
def State.readByte (s : State) (eba : BitVec 23) : BitVec 8 :=
  if eba.getLsbD 0 then (s.readWord (wordOf eba)).extractLsb' 8 8 else (s.readWord (wordOf eba)).extractLsb' 0 8

/-- The devices have seen a read of an address. -/
def State.noteRead (s : State) (a : Addr) : State := { s with devLog := (s.bus.noteRead s.cfg a).devLog }

/-- A word put on the bus. -/
def State.putWord (s : State) (a : Addr) (v : Word) : State :=
  let b := s.bus.write s.cfg a v
  { s with mem := b.mem, devLog := b.devLog }

/-- A byte put on the bus. -/
def State.putByte (s : State) (eba : BitVec 23) (v : BitVec 8) : State :=
  let b := s.bus.writeByte s.cfg eba v
  { s with mem := b.mem, devLog := b.devLog }

/-! Every access of the core goes through one of the four operations below, in the order of the instruction's pseudocode
(R102). -/

/-- MemRead(a, 1): the DMA master's turn, then the word (R70, R98). -/
def State.load (s : State) (a : Addr) : Word × State := (s.dmaPoint.readWord a, s.dmaPoint.noteRead a)

/-- MemReadByte(eba) of [1.3] (R96). -/
def State.loadByte (s : State) (eba : BitVec 23) : BitVec 8 × State :=
  (s.dmaPoint.readByte eba, s.dmaPoint.noteRead (wordOf eba))

/-- MemWrite(a, 1, v): the DMA master's turn, then the word is written (R70, R98). -/
def State.storeWord (s : State) (a : Addr) (v : Word) : State := s.dmaPoint.putWord a v

/-- MemWriteByte(eba, v) of [1.3]; the other byte of the word is unchanged (R96). -/
def State.storeByte (s : State) (eba : BitVec 23) (v : BitVec 8) : State := s.dmaPoint.putByte eba v

/-! ### PC and CS (R26, R28, R29) -/

/-- `{SR.CS, PC}`: the next instruction's address between steps, `nextpc` while an instruction runs (R28). -/
def State.nextPc (s : State) : Addr := mkAddr s.status.cs s.pc

/-- The address `k` words after `{SR.CS, PC}`: inside the page in [1.0], over 22 bits in the others (R29). -/
def State.seqAddr (s : State) (k : Nat) : Addr :=
  if s.cfg.ver = .v10 then mkAddr s.status.cs (s.pc + BitVec.ofNat 16 k) else s.nextPc + BitVec.ofNat 22 k

/-- Move `{SR.CS, PC}` past `k` words, to `nextpc` (R29). -/
def State.advance (s : State) (k : Nat) : State :=
  { s with status := { s.status with cs := pageOf (s.seqAddr k) }, pc := offsetOf (s.seqAddr k) }

/-- `pc <- t` (R9). -/
def State.jump (s : State) (t : Addr) : State :=
  { s with status := { s.status with cs := pageOf t }, pc := offsetOf t }

/-- The addresses of the next three sequential words, which [2.0] may have fetched already (R105). -/
def State.fetchedAhead (s : State) : List Addr := [s.seqAddr 0, s.seqAddr 1, s.seqAddr 2]

/-- Whether an instruction that stores to these addresses, `s` being at its `nextpc`, meets the words fetched ahead of
[2.0] (R105, R517, D5). -/
def State.storesAhead (s : State) (as : List Addr) : Bool :=
  decide (s.cfg.ver = .v20) && as.any (fun a => decide (a ∈ s.fetchedAhead))

/-- The end of an instruction that stores to these addresses: in [2.0] refused where one is a word fetched ahead (R105,
R517, D5; log 27). -/
def storing (s : State) (as : List Addr) (t : State) : Out :=
  if s.storesAhead as then .refused .storeAhead else .next t

/-! ### SR (R24, R48) -/

/-- SR as a word: DS, N, Z, S, C, CS. -/
def Status.word (t : Status) : Word :=
  t.ds ++ BitVec.ofBool t.n ++ BitVec.ofBool t.z ++ BitVec.ofBool t.s ++ BitVec.ofBool t.c ++ t.cs

/-- SR from a word. -/
def Status.ofWord (w : Word) : Status :=
  { ds := w.extractLsb' 10 6
    n := w.getLsbD 9
    z := w.getLsbD 8
    s := w.getLsbD 7
    c := w.getLsbD 6
    cs := w.extractLsb' 0 6 }

/-- The word of SR from its fields; in [1.0] and [1.1] by `ENC_10_11` (R24, D12; log 14). -/
def srWordOf (p : Params) (t : Status) : Word := if p.lostLayout then Config.sr1011 p.ver t.word else t.word

/-- The fields of SR from its word. -/
def srFieldsOf (p : Params) (w : Word) : Status :=
  Status.ofWord (if p.lostLayout then (Config.sr1011 p.ver).symm w else w)

/-- The value of SR; while an instruction runs its CS field is that of `nextpc` (R48). -/
def State.srWord (s : State) : Word := srWordOf s.cfg s.status

/-- Write all 16 bits of SR (R48). -/
def State.setSr (s : State) (w : Word) : State := { s with status := srFieldsOf s.cfg w }

/-- Write SR.DS. -/
def State.setDs (s : State) (p : Page) : State := { s with status := { s.status with ds := p } }

/-! ### Registers (R20, R30, R44) -/

/-- Whether R1 to R4 denote SR1 to SR4: FR.BNK, which [1.0] and [1.1] do not have (R30). -/
def State.bank (s : State) : Bool := s.cfg.ver.is12Plus && s.flags.bnk

/-- R[r] (R9, R20, R30). -/
def State.reg (s : State) (r : Reg) : Word :=
  match r with
  | .sp => s.regs.sp
  | .r1 => if s.bank then s.regs.s1 else s.regs.r1
  | .r2 => if s.bank then s.regs.s2 else s.regs.r2
  | .r3 => if s.bank then s.regs.s3 else s.regs.r3
  | .r4 => if s.bank then s.regs.s4 else s.regs.r4
  | .bp => s.regs.bp
  | .sr => s.srWord
  | .pc => s.pc

/-- R[r] <- v. A write of SR replaces all of it (R48); a write of PC is a jump inside the page of `nextpc` (R49). -/
def State.setReg (s : State) (r : Reg) (v : Word) : State :=
  match r with
  | .sp => { s with regs := { s.regs with sp := v } }
  | .r1 => if s.bank then { s with regs := { s.regs with s1 := v } } else { s with regs := { s.regs with r1 := v } }
  | .r2 => if s.bank then { s with regs := { s.regs with s2 := v } } else { s with regs := { s.regs with r2 := v } }
  | .r3 => if s.bank then { s with regs := { s.regs with s3 := v } } else { s with regs := { s.regs with r3 := v } }
  | .r4 => if s.bank then { s with regs := { s.regs with s4 := v } } else { s with regs := { s.regs with r4 := v } }
  | .bp => { s with regs := { s.regs with bp := v } }
  | .sr => s.setSr v
  | .pc => { s with pc := v }

/-- X[x], an extend register (R44). -/
def State.xreg (s : State) (x : XReg) : Word :=
  match x with
  | .r8 => s.regs.x8
  | .r9 => s.regs.x9
  | .r10 => s.regs.x10
  | .r11 => s.regs.x11
  | .r12 => s.regs.x12
  | .r13 => s.regs.x13
  | .r14 => s.regs.x14
  | .r15 => s.regs.x15

/-- X[x] <- v. -/
def State.setXreg (s : State) (x : XReg) (v : Word) : State :=
  match x with
  | .r8 => { s with regs := { s.regs with x8 := v } }
  | .r9 => { s with regs := { s.regs with x9 := v } }
  | .r10 => { s with regs := { s.regs with x10 := v } }
  | .r11 => { s with regs := { s.regs with x11 := v } }
  | .r12 => { s with regs := { s.regs with x12 := v } }
  | .r13 => { s with regs := { s.regs with x13 := v } }
  | .r14 => { s with regs := { s.regs with x14 := v } }
  | .r15 => { s with regs := { s.regs with x15 := v } }

/-- G[g], a register by its 4-bit number (R411). -/
def State.greg (s : State) (g : GReg) : Word :=
  match g with
  | .core r => s.reg r
  | .ext x => s.xreg x

/-- G[g] <- v. -/
def State.setGreg (s : State) (g : GReg) (v : Word) : State :=
  match g with
  | .core r => s.setReg r v
  | .ext x => s.setXreg x v

/-- MR, the pair {R4, R3} (R21). -/
def State.mr (s : State) : BitVec 32 := s.reg .r4 ++ s.reg .r3

/-- MR <- v (R9, R21). -/
def State.setMr (s : State) (v : BitVec 32) : State :=
  (s.setReg .r4 (v.extractLsb' 16 16)).setReg .r3 (v.extractLsb' 0 16)

/-! ### The shift buffers and FR (R31, R36, R473) -/

/-- The shift buffer in use: that of FIQ while an FIQ is in service, else of IRQ while an IRQ is, else the user's
(R36, R473). -/
def State.shiftBuf (s : State) : BitVec 4 :=
  if Level.fiq ∈ s.svc then s.sb.fiq else if Level.irq ∈ s.svc then s.sb.irq else s.sb.user

/-- Write the shift buffer in use. -/
def State.setShiftBuf (s : State) (v : BitVec 4) : State :=
  { s with sb :=
      if Level.fiq ∈ s.svc then { s.sb with fiq := v }
      else if Level.irq ∈ s.svc then { s.sb with irq := v }
      else { s.sb with user := v } }

/-- FR as a word; bits 10:7 read the shift buffer in use (R31, R36). -/
def State.frWord (s : State) : Word :=
  BitVec.ofBool s.flags.top ++ BitVec.ofBool s.flags.aq ++ BitVec.ofBool s.flags.bnk ++ BitVec.ofBool s.flags.fra
    ++ BitVec.ofBool s.flags.fir ++ s.shiftBuf ++ BitVec.ofBool s.flags.f ++ BitVec.ofBool s.flags.i
    ++ BitVec.ofBool s.flags.ine ++ s.flags.pri

/-- The fields of FR, but for SB, from a word (R31, R314). -/
def FlagReg.ofWord (w : Word) : FlagReg :=
  { top := w.getLsbD 15
    aq := w.getLsbD 14
    bnk := w.getLsbD 13
    fra := w.getLsbD 12
    fir := w.getLsbD 11
    f := w.getLsbD 6
    i := w.getLsbD 5
    ine := w.getLsbD 4
    pri := w.extractLsb' 0 4 }

/-- Write all 16 bits of FR; bits 10:7 go to the shift buffer in use (R314, D16). -/
def State.setFr (s : State) (w : Word) : State :=
  { s.setShiftBuf (w.extractLsb' 7 4) with flags := FlagReg.ofWord w }

/-- A shift buffer nobody knows: the free value of U1, a fresh one at each draw (R36, R260; log 28). -/
def State.freeShiftBuf (s : State) : State :=
  { s.setShiftBuf (Config.freeShiftBuffer s.freeIdx) with freeIdx := s.freeIdx + 1 }

/-! ### MDS [1.3] (R43) -/

/-- MDS as a word; bits 15:14 and 7:6 read 0 (R43, D15). -/
def State.mdsWord (s : State) : Word := 0b00#2 ++ s.mds.segD ++ 0b00#2 ++ s.mds.segS

/-- Write MDS; bits 15:14 and 7:6 are ignored (R43, R317, D15). -/
def State.setMds (s : State) (w : Word) : State :=
  { s with mds := { segD := w.extractLsb' 8 6, segS := w.extractLsb' 0 6 } }

/-! ### The stack (R22, R42, R89, R330) -/

/-- The page of PUSH, POP and the interrupt stack: 0, or SS in [1.3] (R72, R89). -/
def State.stackPage (s : State) : Page := if s.cfg.ver = .v13 then s.ss else 0

/-- The word a stack pointer register addresses. -/
def State.stackAddr (s : State) (g : GReg) : Addr := mkAddr s.stackPage (s.greg g)

/-- The addresses `i`, ..., `i + n - 1` words below a stack pointer (R22, R42). -/
def State.stackAddrsFrom (s : State) (g : GReg) (i n : Nat) : List Addr :=
  match n with
  | 0 => []
  | k + 1 =>
    (if s.cfg.ver = .v13 then s.stackAddr g - BitVec.ofNat 22 i else mkAddr 0 (s.greg g - BitVec.ofNat 16 i))
      :: s.stackAddrsFrom g (i + 1) k

/-- The addresses of the `n` words pushed through a stack pointer (R172). -/
def State.stackAddrs (s : State) (g : GReg) (n : Nat) : List Addr := s.stackAddrsFrom g 0 n

/-- Step a stack pointer by `d`: the 16-bit register, or in [1.3] the 22-bit `{SS, R}` as a whole (R22, R42, D7). -/
def State.stepStack (s : State) (g : GReg) (d : Int) : State :=
  if s.cfg.ver = .v13 then
    let t := s.stackAddr g + BitVec.ofInt 22 d
    { s with ss := pageOf t }.setGreg g (offsetOf t)
  else s.setGreg g (s.greg g + BitVec.ofInt 16 d)

/-- Store at the pointer, then decrement it (R172, R330). -/
def State.pushVia (s : State) (g : GReg) (v : Word) : State :=
  (s.storeWord (s.stackAddr g) v).stepStack g (-1)

/-- Increment the pointer; the word it then addresses is the one popped (R173, R330). -/
def State.popStep (s : State) (g : GReg) : State := s.stepStack g 1

/-- push(v) of R330: through SP. -/
def State.push (s : State) (v : Word) : State := s.pushVia (.core .sp) v

/-- pop() of R330: the word and the state with SP moved. -/
def State.pop (s : State) : Word × State :=
  let s1 := s.popStep (.core .sp)
  s1.load (s1.stackAddr (.core .sp))

/-- Push `nextpc` and SR, PC first (R330, R331). -/
def State.pushReturn (s : State) : State :=
  let s1 := s.push s.pc
  s1.push s.srWord

/-! ### Taking an exception (R351, R453, R454, R462 to R473) -/

/-- The events that save state and go through a vector; reset is apart (R450). -/
inductive Event where
  | brk
  | ade
  | fiq
  | irq (n : BitVec 3)
  deriving DecidableEq, Repr

/-- The vector slot of an event: 5 BREAK and AdE, 6 FIQ, 8 + n IRQn (R462). -/
def Event.slot : Event → BitVec 4
  | .brk => 5#4
  | .ade => 5#4
  | .fiq => 6#4
  | .irq n => 0b1#1 ++ n

/-- The vector slot of RESET (R462). -/
def resetSlot : BitVec 4 := 7#4

/-- VEC: the address of a vector word, {~TEST[1], base, ~TEST[0], slot} in page 0, where base is INT_BASE in [1.3] and
all ones in [1.2] and [2.0]; in [1.0] and [1.1] the addresses are those of TEST = 00 (R463, R464, R465). -/
def vectorAddr (p : Params) (slot : BitVec 4) : Addr :=
  let test : BitVec 2 := if p.ver.is12Plus then p.test else 0b00#2
  let base : BitVec 10 := if p.ver = .v13 then p.intBase else 0b1111111111#10
  mkAddr 0 (~~~(test.extractLsb' 1 1) ++ base ++ ~~~(test.extractLsb' 0 1) ++ slot)

/-- withFR of an entry: whether FR is saved (R467). -/
def State.savesFr (s : State) (e : Event) : Bool :=
  match e with
  | .brk => false
  | .ade => false
  | .fiq => decide (s.cfg.ver = .v13)
  | .irq _ => decide (s.cfg.ver = .v13) || (s.cfg.ver.is12Plus && s.flags.ine)

/-- The FR fields an entry changes, after FR is saved (R469, R470, R471, R466). -/
def State.entryFlags (s : State) (e : Event) : FlagReg :=
  match e with
  | .brk => s.flags
  | .ade => s.flags
  | .fiq => if s.cfg.ver = .v13 then { s.flags with f := false, i := false } else s.flags
  | .irq n =>
    if s.cfg.ver = .v13 then { s.flags with i := false, pri := 0b0#1 ++ n }
    else if s.cfg.ver.is12Plus && s.flags.ine then { s.flags with pri := 0b0#1 ++ n }
    else s.flags

/-- SVC after an entry: the level pushed; BREAK pushes none in [1.0] and [1.1] (R466, R468). -/
def State.entrySvc (s : State) (e : Event) : List Level :=
  match e with
  | .brk => if s.cfg.ver.is12Plus then .brk :: s.svc else s.svc
  | .ade => .brk :: s.svc
  | .fiq => .fiq :: s.svc
  | .irq _ => .irq :: s.svc

/-- FR.AdE is set before anything is pushed (R453). -/
def State.markAde (s : State) (e : Event) : State :=
  if e = .ade then { s with flags := { s.flags with top := true } } else s

/-- Taking an exception: push PC, SR and, where the entry saves it, FR; change FR; read the vector; push the level; go to
`{0, vector}` (R454, R351, R453). -/
def State.enter (e : Event) (s : State) : State :=
  let s1 := (s.markAde e).pushReturn
  let s2 := if s1.savesFr e then s1.push s1.frWord else s1
  let v := s2.load (vectorAddr s2.cfg e.slot)
  { v.2 with flags := s2.entryFlags e, svc := s2.entrySvc e }.jump (mkAddr 0 v.1)

/-! ### Returning (R333, R334) -/

/-- RETF: SR then PC from the stack (R333). -/
def State.returnFar (s : State) : State :=
  let sr := s.pop
  let t := sr.2.setSr sr.1
  let pc := t.pop
  pc.2.setReg .pc pc.1

/-- withFR of RETI, from the level in service and, in [1.2] and [2.0], the INE of its own time (R334, R467). -/
def State.restoresFr (s : State) : Bool :=
  match s.cfg.ver with
  | .v10 => false
  | .v11 => false
  | .v12 => decide (s.svc.head? = some .irq) && s.flags.ine
  | .v20 => decide (s.svc.head? = some .irq) && s.flags.ine
  | .v13 => decide (s.svc.head? = some .irq) || decide (s.svc.head? = some .fiq)

/-- RETI: FR where `restoresFr`, into the shift buffer in use before the level goes; SR; PC; the top level leaves SVC
(R334). -/
def State.returnInt (s : State) : State :=
  let s1 := if s.restoresFr then (let fr := s.pop; fr.2.setFr fr.1) else s
  let s2 := s1.returnFar
  { s2 with svc := s2.svc.tail }

end Sys2Proof.Machine
end

