-- ==== Sys2Proof/Machine/Flags.lean ====
section
/-! DEFINITION. The ALU: the result and the flags of each operation (spec 41_alu.md R200, R201; 10_state.md R25), the
conditions of the branches (R336 to R350), and the Z flag of the bit operations (R290). -/

namespace Sys2Proof.Machine

open Sys2Proof

/-- u of R201: the unsigned sum, exact. -/
def sumU (a b : Word) (cin : Bool) : Nat := a.toNat + b.toNat + cin.toNat

/-- s of R201: the signed sum, exact. -/
def sumS (a b : Word) (cin : Bool) : Int := a.toInt + b.toInt + cin.toNat

/-- b' of R201: the second addend, ~b for the subtractions. -/
def aluAddend (op : AluOp) (b : Word) : Word :=
  match op with
  | .sub | .sbc | .cmp => ~~~b
  | .add | .adc | .neg | .xor | .load | .or | .and | .test => b

/-- cin of R201. -/
def aluCarryIn (op : AluOp) (c : Bool) : Bool :=
  match op with
  | .adc | .sbc => c
  | .sub | .cmp => true
  | .add | .neg | .xor | .load | .or | .and | .test => false

/-- The five operations that write N, Z, S and C; the others write N and Z (R200). -/
def aluIsAdditive (op : AluOp) : Bool :=
  match op with
  | .add | .adc | .sub | .sbc | .cmp => true
  | .neg | .xor | .load | .or | .and | .test => false

/-- The result of an operation on X = a, Y = b with SR.C = c (R201). -/
def aluResult (op : AluOp) (a b : Word) (c : Bool) : Word :=
  match op with
  | .add | .adc | .sub | .sbc | .cmp => BitVec.ofNat 16 (sumU a (aluAddend op b) (aluCarryIn op c))
  | .neg => ~~~b + 1
  | .xor => a ^^^ b
  | .load => b
  | .or => a ||| b
  | .and => a &&& b
  | .test => a &&& b

/-- N and Z of a 16-bit result (R25, R201). -/
def Status.setNZ (t : Status) (res : Word) : Status := { t with n := res.msb, z := decide (res = 0) }

/-- SR with the flags of an operation (R200, R201): C is the carry out of bit 15, S the sign of the exact signed sum. -/
def aluStatus (op : AluOp) (a b : Word) (t : Status) : Status :=
  let u := sumU a (aluAddend op b) (aluCarryIn op t.c)
  let s := sumS a (aluAddend op b) (aluCarryIn op t.c)
  let nz := t.setNZ (aluResult op a b t.c)
  if aluIsAdditive op then { nz with s := decide (s < 0), c := decide (2 ^ 16 ≤ u) } else nz

/-- SR.N, SR.Z from a value loaded (R170). -/
def State.setNZ (s : State) (v : Word) : State := { s with status := s.status.setNZ v }

/-- Whether an operation writes its result: CMP and TEST do not (R200). -/
def aluWrites (op : AluOp) : Bool :=
  match op with
  | .cmp | .test => false
  | .add | .adc | .sub | .sbc | .neg | .xor | .load | .or | .and => true

/-- The end of an ALU instruction with a destination register (R222): Rd = PC leaves the flags (R49, D11), Rd = SR is
written after them (R48, D10). -/
def State.aluWrite (s : State) (op : AluOp) (rd : Reg) (a b : Word) : State :=
  let res := aluResult op a b s.status.c
  let flagged : State := { s with status := aluStatus op a b s.status }
  if aluWrites op then
    if rd = .pc then s.setReg .pc res else flagged.setReg rd res
  else if rd = .pc then s else flagged

/-- The same for a register of 4-bit number (R411, R412). -/
def State.aluWriteG (s : State) (op : AluOp) (g : GReg) (a b : Word) : State :=
  match g with
  | .core r => s.aluWrite op r a b
  | .ext x =>
    let flagged : State := { s with status := aluStatus op a b s.status }
    if aluWrites op then flagged.setXreg x (aluResult op a b s.status.c) else flagged

/-- The W = 1 form (R219): the result goes to memory, the flags are always written, CMP and TEST store nothing. -/
def State.aluStore (s : State) (op : AluOp) (ea : Addr) (a b : Word) : State :=
  let stored := if aluWrites op then s.storeWord ea (aluResult op a b s.status.c) else s
  { stored with status := aluStatus op a b s.status }

/-- The addresses the W = 1 form stores to. -/
def aluStores (op : AluOp) (ea : Addr) : List Addr := if aluWrites op then [ea] else []

/-- When a branch is taken (R336 to R350). -/
def condHolds (c : Cond) (t : Status) : Bool :=
  match c with
  | .cc => !t.c
  | .cs => t.c
  | .sc => !t.s
  | .ss => t.s
  | .ne => !t.z
  | .z => t.z
  | .pl => !t.n
  | .mi => t.n
  | .be => !(!t.z && t.c)
  | .nbe => !t.z && t.c
  | .le => !(!t.z && !t.s)
  | .nle => !t.z && !t.s
  | .vc => t.n == t.s
  | .vs => t.n != t.s
  | .always => true

/-- SR.Z <- (w[k] == 0) (R290). -/
def State.setZOfBit (s : State) (w : Word) (k : BitVec 4) : State :=
  { s with status := { s.status with z := !w.getLsbD k.toNat } }

end Sys2Proof.Machine
end

