-- ==== Sys2Proof/Machine/Operands.lean ====
section
/-! DEFINITION. The operand forms: effective addresses, the pointer modes, the 4-bit shifter, and the execution template
of each form of the ALU rows, of STORE, of PUSH and POP, and of the bit operations (spec 20_memory.md R80 to R92,
40_data_transfer.md, 41_alu.md R213 to R222, 44_bitop.md, 48_byte_mode_13.md R381, 49_extended_20.md R412, R413). -/

namespace Sys2Proof.Machine

open Sys2Proof

/-! ### Effective addresses -/

/-- `[BP+IM6]`: in page 0 with a 16-bit sum; in [1.3] the 22-bit sum from `{SS, BP}` (R83, D7). -/
def bpEa (s : State) (im : BitVec 6) : Addr :=
  if s.cfg.ver = .v13 then mkAddr s.ss (s.reg .bp) + im.setWidth 22 else mkAddr 0 (s.reg .bp + im.setWidth 16)

/-- `[A6]` (R84). -/
def a6Ea (a : BitVec 6) : Addr := a.setWidth 22

/-- `[A16]` (R85). -/
def a16Ea (a : Word) : Addr := mkAddr 0 a

/-- The page of an access with or without `D:` (R86, R296, R297). -/
def dataPage (s : State) (d : Bool) : Page := if d then s.status.ds else 0

/-- Whether the 22-bit `{DS, pointer}` is stepped as a whole: with `D:`, but not in [1.0] (R87). -/
def ptrWide (s : State) (d : Bool) : Bool := d && decide (s.cfg.ver ≠ .v10)

/-- Step a pointer by `k`: over 22 bits when wide, else its low 16 bits alone (R87). -/
def ptrStep (wide : Bool) (v : Addr) (k : Int) : Addr :=
  if wide then v + BitVec.ofInt 22 k else mkAddr (pageOf v) (offsetOf v + BitVec.ofInt 16 k)

/-- The address of `{D:}[Rs@]` for the pointer value `p`; the pre-increment comes first (R86, R87). -/
def ptrEa (s : State) (d : Bool) (m : PtrMode) (p : Word) : Addr :=
  let cur := mkAddr (dataPage s d) p
  match m with
  | .preInc => ptrStep (ptrWide s d) cur 1
  | .keep | .postDec | .postInc => cur

/-- The pointer after the instruction, with its page (R87). -/
def ptrNew (s : State) (d : Bool) (m : PtrMode) (p : Word) : Addr :=
  let cur := mkAddr (dataPage s d) p
  match m with
  | .keep => cur
  | .postDec => ptrStep (ptrWide s d) cur (-1)
  | .postInc => ptrStep (ptrWide s d) cur 1
  | .preInc => ptrStep (ptrWide s d) cur 1

/-- Write the pointer back, and DS where the pointer is wide (R87). -/
def ptrCommit (s : State) (d : Bool) (m : PtrMode) (g : GReg) : State :=
  if m = .keep then s
  else
    let t := ptrNew s d m (s.greg g)
    let s1 := s.setGreg g (offsetOf t)
    if ptrWide s d then s1.setDs (pageOf t) else s1

/-- A pointer update on the register of the other operand, or on SR or PC (R87, D17; log 22). -/
def ptrConflict (m : PtrMode) (rd rs : Reg) : Bool :=
  decide (m ≠ .keep) && (decide (rs = rd) || decide (rs = .sr) || decide (rs = .pc))

/-! ### The 4-bit shifter (R213 to R218) -/

/-- The count `nn` holds less 1 (R127). -/
def shiftCount (nn : BitVec 2) : Nat := nn.toNat + 1

/-- The 20-bit row before the shift: SB below the register for the right shifts, above it for the left ones. -/
def shift4Row (k : Shift4) (v : Word) (sb : BitVec 4) : BitVec 20 :=
  match k with
  | .asr | .lsr | .ror => v ++ sb
  | .lsl | .rol => sb ++ v

/-- The 20-bit row after the shift (R214 to R218). -/
def shift4Move (k : Shift4) (t : BitVec 20) (n : Nat) : BitVec 20 :=
  match k with
  | .asr => t.sshiftRight n
  | .lsl => t <<< n
  | .lsr => t >>> n
  | .rol => t.rotateLeft n
  | .ror => t.rotateRight n

/-- Y: the shifted register (R214 to R218). -/
def shift4Out (k : Shift4) (t : BitVec 20) : Word :=
  match k with
  | .asr | .lsr | .ror => t.extractLsb' 4 16
  | .lsl | .rol => t.extractLsb' 0 16

/-- The shift buffer after the shift (R214 to R218). -/
def shift4Buf (k : Shift4) (t : BitVec 20) : BitVec 4 :=
  match k with
  | .asr | .lsr | .ror => t.extractLsb' 0 4
  | .lsl | .rol => t.extractLsb' 16 4

/-! ### The ALU rows (R222, R219) -/

/-- `Rd # = [BP+IM6]` (R83). -/
def aluBpIm6 (op : AluOp) (rd : Reg) (im : BitVec 6) (s : State) : Out :=
  let y := s.load (bpEa s im)
  .next (y.2.aluWrite op rd (s.reg rd) y.1)

/-- `Rd # = IM6` (R81). -/
def aluIm6 (op : AluOp) (rd : Reg) (im : BitVec 6) (s : State) : Out :=
  .next (s.aluWrite op rd (s.reg rd) (im.setWidth 16))

/-- `Rd # = {D:}[Rs@]` (R86, R87): X is read, the pointer moves (before the access for `[++Rs]`, which its address shows)
and Y is read, then the result is written. -/
def aluInd (op : AluOp) (rd : Reg) (d : Bool) (m : PtrMode) (rs : Reg) (s : State) : Out :=
  if ptrConflict m rd rs then .refused .pointerConflict
  else
    let y := s.load (ptrEa s d m (s.reg rs))
    .next ((ptrCommit y.2 d m (.core rs)).aluWrite op rd (s.reg rd) y.1)

/-- `Rd # = Rs` (R88). -/
def aluReg (op : AluOp) (rd rs : Reg) (s : State) : Out :=
  .next (s.aluWrite op rd (s.reg rd) (s.reg rs))

/-- `Rd = Rs # IM16` (R82). -/
def aluIm16 (op : AluOp) (rd rs : Reg) (im : Word) (s : State) : Out :=
  .next (s.aluWrite op rd (s.reg rs) im)

/-- The [A16] rows: `Rd = Rs # [A16]` for W = 0, `[A16] = Rd # Rs` for W = 1 (R85, R219). -/
def aluA16 (op : AluOp) (w : Bool) (rd rs : Reg) (a : Word) (s : State) : Out :=
  if w then storing s (aluStores op (a16Ea a)) (s.aluStore op (a16Ea a) (s.reg rd) (s.reg rs))
  else
    let y := s.load (a16Ea a)
    .next (y.2.aluWrite op rd (s.reg rs) y.1)

/-- `Rd # = Rs SFT nn` (R88, R213): Y and the shift buffer from the 20-bit row. DEDUCED (log 60): with Rd = PC too the
shift buffer takes the bits R214 to R218 give it. -/
def aluShift (op : AluOp) (k : Shift4) (rd : Reg) (nn : BitVec 2) (rs : Reg) (s : State) : Out :=
  let t := shift4Move k (shift4Row k (s.reg rs) s.shiftBuf) (shiftCount nn)
  .next ((s.setShiftBuf (shift4Buf k t)).aluWrite op rd (s.reg rd) (shift4Out k t))

/-- `Rd # = [A6]` (R84). -/
def aluA6 (op : AluOp) (rd : Reg) (a : BitVec 6) (s : State) : Out :=
  let y := s.load (a6Ea a)
  .next (y.2.aluWrite op rd (s.reg rd) y.1)

/-! ### The extended ALU rows of [2.0] (R412, R413) -/

/-- `Ra # = Rb`. -/
def extReg (op : AluOp) (ra rb : GReg) (s : State) : Out :=
  .next (s.aluWriteG op ra (s.greg ra) (s.greg rb))

/-- `Ra = Rb # IM16`. -/
def extIm16 (op : AluOp) (ra rb : GReg) (im : Word) (s : State) : Out :=
  .next (s.aluWriteG op ra (s.greg rb) im)

/-- `Ra = Rb # [A16]` for W = 0, `[A16] = Ra # Rb` for W = 1. -/
def extA16 (op : AluOp) (w : Bool) (ra rb : GReg) (a : Word) (s : State) : Out :=
  if w then storing s (aluStores op (a16Ea a)) (s.aluStore op (a16Ea a) (s.greg ra) (s.greg rb))
  else
    let y := s.load (a16Ea a)
    .next (y.2.aluWriteG op ra (s.greg rb) y.1)

/-- `Rx # = {D:}[Ry@]` (R413). -/
def extInd (op : AluOp) (rx : XReg) (d : Bool) (m : PtrMode) (ry : XReg) (s : State) : Out :=
  if m ≠ .keep ∧ rx = ry then .refused .pointerConflict
  else
    let y := s.load (ptrEa s d m (s.xreg ry))
    .next ((ptrCommit y.2 d m (.ext ry)).aluWriteG op (.ext rx) (s.xreg rx) y.1)

/-- `Rx # = IM6`. -/
def extIm6 (op : AluOp) (rx : XReg) (im : BitVec 6) (s : State) : Out :=
  .next (s.aluWriteG op (.ext rx) (s.xreg rx) (im.setWidth 16))

/-- `Rx # = [BP+IM6]`, with the core BP. -/
def extBpIm6 (op : AluOp) (rx : XReg) (im : BitVec 6) (s : State) : Out :=
  let y := s.load (bpEa s im)
  .next (y.2.aluWriteG op (.ext rx) (s.xreg rx) y.1)

/-- `Rx # = [A6]`. -/
def extA6 (op : AluOp) (rx : XReg) (a : BitVec 6) (s : State) : Out :=
  let y := s.load (a6Ea a)
  .next (y.2.aluWriteG op (.ext rx) (s.xreg rx) y.1)

/-! ### STORE (R171, R416) -/

/-- Store a word (R171): in [2.0] refused where it is one of the words fetched ahead (R517). -/
def storeAt (ea : Addr) (v : Word) (s : State) : Out := storing s [ea] (s.storeWord ea v)

/-- Store through `{D:}[Rs@]`: the pre-increment first, the other updates after the store (R171, R87). -/
def storeVia (d : Bool) (m : PtrMode) (p g : GReg) (s : State) : Out :=
  let ea := ptrEa s d m (s.greg p)
  storing s [ea]
    (if m = .preInc then
      let s1 := ptrCommit s d m p
      s1.storeWord ea (s1.greg g)
    else ptrCommit (s.storeWord ea (s.greg g)) d m p)

/-! ### PUSH and POP (R172, R173, R417, R418) -/

/-- PUSH of a list of registers, the first one stored first. -/
def pushRegs (rs : GReg) : List GReg → State → State
  | [], s => s
  | r :: t, s => pushRegs rs t (s.pushVia rs (s.greg r))

/-- PUSH as an instruction: in [2.0] refused where a word of it is one of those fetched ahead (R172, R517). -/
def pushList (rs : GReg) (l : List GReg) (s : State) : Out :=
  storing s (s.stackAddrs rs l.length) (pushRegs rs l s)

/-- The flags of one load of POP: in [1.0] and [1.1] N and Z of a value that goes neither to SR nor to PC (R173). -/
def popFlags (s : State) (g : GReg) (v : Word) : State :=
  match s.cfg.ver with
  | .v10 | .v11 => if g = .core .sr ∨ g = .core .pc then s else s.setNZ v
  | .v12 | .v13 | .v20 => s

/-- POP of a list of registers, the first one loaded first. -/
def popRegs (rs : GReg) : List GReg → State → State
  | [], s => s
  | r :: t, s =>
    let s1 := s.popStep rs
    let v := s1.load (s1.stackAddr rs)
    popRegs rs t (popFlags (v.2.setGreg r v.1) r v.1)

/-- The page of `pc <- {cs, v}` after the pops `t` of the registers `l`, `s` being at `nextpc`: the CS loaded where SR is
in the set, else that of `nextpc` (R173). SR.CS holds it but where SR is the pointer, whose own steps have moved it. -/
def popPage (rs : GReg) (l : List GReg) (s t : State) : State :=
  if rs = .core .sr ∧ .core .pc ∈ l then { t with status := { t.status with cs := s.status.cs } } else t

/-- The core registers with the numbers `lo`, ..., `lo + n - 1`. -/
def coreRange (lo n : Nat) : List GReg :=
  match n with
  | 0 => []
  | k + 1 => .core (Reg.ofNum (BitVec.ofNat 3 lo)) :: coreRange (lo + 1) k

/-- The extend registers with the numbers 8 + `lo`, ..., 8 + `lo + n - 1`. -/
def extRange (lo n : Nat) : List GReg :=
  match n with
  | 0 => []
  | k + 1 => .ext (XReg.ofNum (BitVec.ofNat 3 lo)) :: extRange (lo + 1) k

/-- The registers of a PUSH, lowest first: Rd - N + 1 to Rd (R172). -/
def pushSet (rd : Reg) (n : BitVec 3) : List GReg := coreRange (rd.num.toNat + 1 - n.toNat) n.toNat

/-- The registers of a POP: Rd + 1 to Rd + N (R173). -/
def popSet (rd : Reg) (n : BitVec 3) : List GReg := coreRange (rd.num.toNat + 1) n.toNat

/-- The registers of an ext PUSH, lowest first: h - N + 1 to h with h = 8 + field (R417). -/
def extPushSet (rx : XReg) (n : BitVec 3) : List GReg := extRange (rx.num.toNat + 1 - n.toNat) n.toNat

/-- The first register of an ext POP, less 8: the field plus 1 modulo 8, or the field (R418, D24). -/
def extPopFirst (p : Params) (fld : BitVec 3) : Nat :=
  match p.extPop with
  | .minusOne => (fld + 1#3).toNat
  | .direct => fld.toNat

/-- The registers of an ext POP (R418). -/
def extPopSet (p : Params) (fld n : BitVec 3) : List GReg := extRange (extPopFirst p fld) n.toNat

/-! ### Bit operations (R290 to R297) -/

/-- w' of R290. -/
def bitResult (op : BitOp) (w : Word) (k : BitVec 4) : Word :=
  match op with
  | .tst => w
  | .set => w ||| (1#16 <<< k.toNat)
  | .clr => w &&& ~~~(1#16 <<< k.toNat)
  | .inv => w ^^^ (1#16 <<< k.toNat)

/-- A bit operation on a register: Z, then the register (R290; with Rd = SR the register write wins, R296, D10). -/
def bitReg (op : BitOp) (rd : Reg) (k : BitVec 4) (s : State) : Out :=
  let w := s.reg rd
  let s1 := s.setZOfBit w k
  if op = .tst then .next s1 else .next (s1.setReg rd (bitResult op w k))

/-- A bit operation on the word at an address: one read, Z, and but for TSTB one write (R290). -/
def bitMem (op : BitOp) (ea : Addr) (k : BitVec 4) (s : State) : Out :=
  let w := s.load ea
  let s1 := w.2.setZOfBit w.1 k
  if op = .tst then .next s1 else storing s [ea] (s1.storeWord ea (bitResult op w.1 k))

/-- k of the forms with a register: R[Rs][3:0] (R290). -/
def bitIndex (s : State) (rs : Reg) : BitVec 4 := (s.reg rs).extractLsb' 0 4

/-- The address of the `{D:}[Rd]` forms (R296). -/
def bitEa (s : State) (d : Bool) (rd : Reg) : Addr := mkAddr (dataPage s d) (s.reg rd)

/-! ### The byte modes of [1.3] (R92, R381, R389, R391) -/

/-- Parameter `EBA_BP`: the effective byte address of `[BP+IM6]` in byte mode from R[5], R[x] (where the form has a
register Rd), SS and IM6. No source gives it, so it has no body (R389, D29; log 39). -/
opaque Config.ebaBp : Word → Option Word → Page → BitVec 6 → BitVec 23

/-- EBA of `[BP+IM6]` (R389). -/
def bpEba (s : State) (rd : Option Reg) (im : BitVec 6) : BitVec 23 :=
  Config.ebaBp (s.reg .bp) (rd.map s.reg) s.ss im

/-- Parameter `EBA_I`: the effective byte address of `I[R@]`, which no source gives (R391, D29; log 39). -/
opaque Config.ebaI : State → PairReg → PtrMode → BitVec 23

/-- R[x], the pointer register of a byte mode (R381). -/
def pairLow : PairReg → Reg
  | .p1 => .r1
  | .p2 => .r2
  | .p3 => .r3
  | .p4 => .r4

/-- R[x+1], the register that holds the upper part of the pointer (R381). -/
def pairHigh : PairReg → Reg
  | .p1 => .r2
  | .p2 => .r3
  | .p3 => .r4
  | .p4 => .bp

/-- The byte step of a width (R381, D28). -/
def widthStep : Width → BitVec 23
  | .byte => 1#23
  | .word => 2#23

/-- P[22:0], the 23-bit pointer (R92, R381). -/
def pairPtr (s : State) (x : PairReg) : BitVec 23 := (s.reg (pairHigh x) ++ s.reg (pairLow x)).extractLsb' 0 23

/-- P[22:0] <- v; P[31:23] keep their bits (R92, R381). -/
def setPairPtr (s : State) (x : PairReg) (v : BitVec 23) : State :=
  let hi := (s.reg (pairHigh x)).extractLsb' 7 9 ++ v.extractLsb' 16 7
  (s.setReg (pairHigh x) hi).setReg (pairLow x) (v.extractLsb' 0 16)

/-- EBA of `[R@]`: the pre-increment comes first (R381). -/
def pairEba (s : State) (w : Width) (m : PtrMode) (x : PairReg) : BitVec 23 :=
  match m with
  | .preInc => pairPtr s x + widthStep w
  | .keep | .postDec | .postInc => pairPtr s x

/-- The pointer update before the access: `[++R]` (R381). -/
def pairBefore (s : State) (w : Width) (m : PtrMode) (x : PairReg) : State :=
  match m with
  | .preInc => setPairPtr s x (pairPtr s x + widthStep w)
  | .keep | .postDec | .postInc => s

/-- The pointer update after the access: `[R++]`, `[R--]` (R381). -/
def pairAfter (s : State) (w : Width) (m : PtrMode) (x : PairReg) : State :=
  match m with
  | .postInc => setPairPtr s x (pairPtr s x + widthStep w)
  | .postDec => setPairPtr s x (pairPtr s x - widthStep w)
  | .keep | .preInc => s

/-- Rd in the pointer pair of a pointer update (R392, D17). DESIGN CHOICE (log 59): the meanings test it before the
alignment, so that a `W:` access at an odd address with such an Rd is refused and raises no AdE. -/
def pairConflict (m : PtrMode) (x : PairReg) (rd : Reg) : Bool :=
  decide (m ≠ .keep) && (decide (rd = pairLow x) || decide (rd = pairHigh x))

/-- A word access at an odd byte address (R97, R381). -/
def misaligned (w : Width) (eba : BitVec 23) : Bool := decide (w = .word) && eba.getLsbD 0

/-- What a byte-mode access reads, and the state after it: the byte zero-extended, or the word (R382, R383). -/
def byteLoad (s : State) (w : Width) (eba : BitVec 23) : Word × State :=
  match w with
  | .byte => ((s.loadByte eba).1.setWidth 16, (s.loadByte eba).2)
  | .word => s.load (wordOf eba)

/-- The store of a byte-mode access: the low byte, or the word (R384, R385). -/
def byteStore (s : State) (w : Width) (eba : BitVec 23) (v : Word) : State :=
  match w with
  | .byte => s.storeByte eba (v.extractLsb' 0 8)
  | .word => s.storeWord (wordOf eba) v

end Sys2Proof.Machine
end

