-- ==== Sys2Proof/Machine/BitOp.lean ====
section
/-! DEFINITION. The meanings of TSTB, SETB, CLRB, INVB (spec 44_bitop.md). Each takes the state
after `{SR.CS, PC}` has moved to `nextpc` (R28). -/

namespace Sys2Proof.Machine

open Sys2Proof

/-- TSTB, BITOP_A16_OFFSET (R292, R297). -/
def execTstbA16 (d : Bool) (off : BitVec 4) (a : Word) (s : State) : Out :=
  bitMem .tst (mkAddr (dataPage s d) a) off s

/-- SETB, BITOP_A16_OFFSET (R293, R297). -/
def execSetbA16 (d : Bool) (off : BitVec 4) (a : Word) (s : State) : Out :=
  bitMem .set (mkAddr (dataPage s d) a) off s

/-- CLRB, BITOP_A16_OFFSET (R294, R297). -/
def execClrbA16 (d : Bool) (off : BitVec 4) (a : Word) (s : State) : Out :=
  bitMem .clr (mkAddr (dataPage s d) a) off s

/-- INVB, BITOP_A16_OFFSET (R295, R297). -/
def execInvbA16 (d : Bool) (off : BitVec 4) (a : Word) (s : State) : Out :=
  bitMem .inv (mkAddr (dataPage s d) a) off s

/-- TSTB, BITOP_REG_REG (R292, R290). -/
def execTstbRegReg (rd : Reg) (rs : Reg) (s : State) : Out :=
  bitReg .tst rd (bitIndex s rs) s

/-- TSTB, BITOP_REG_OFFSET (R292, R290). -/
def execTstbRegOff (rd : Reg) (off : BitVec 4) (s : State) : Out :=
  bitReg .tst rd off s

/-- TSTB, BITOP_MEM_REG (R292, R296). -/
def execTstbMemReg (rd : Reg) (d : Bool) (rs : Reg) (s : State) : Out :=
  bitMem .tst (bitEa s d rd) (bitIndex s rs) s

/-- TSTB, BITOP_MEM_OFFSET (R292, R296). -/
def execTstbMemOff (rd : Reg) (d : Bool) (off : BitVec 4) (s : State) : Out :=
  bitMem .tst (bitEa s d rd) off s

/-- SETB, BITOP_REG_REG (R293, R290). -/
def execSetbRegReg (rd : Reg) (rs : Reg) (s : State) : Out :=
  bitReg .set rd (bitIndex s rs) s

/-- SETB, BITOP_REG_OFFSET (R293, R290). -/
def execSetbRegOff (rd : Reg) (off : BitVec 4) (s : State) : Out :=
  bitReg .set rd off s

/-- SETB, BITOP_MEM_REG (R293, R296). -/
def execSetbMemReg (rd : Reg) (d : Bool) (rs : Reg) (s : State) : Out :=
  bitMem .set (bitEa s d rd) (bitIndex s rs) s

/-- SETB, BITOP_MEM_OFFSET (R293, R296). -/
def execSetbMemOff (rd : Reg) (d : Bool) (off : BitVec 4) (s : State) : Out :=
  bitMem .set (bitEa s d rd) off s

/-- CLRB, BITOP_REG_REG (R294, R290). -/
def execClrbRegReg (rd : Reg) (rs : Reg) (s : State) : Out :=
  bitReg .clr rd (bitIndex s rs) s

/-- CLRB, BITOP_REG_OFFSET (R294, R290). -/
def execClrbRegOff (rd : Reg) (off : BitVec 4) (s : State) : Out :=
  bitReg .clr rd off s

/-- CLRB, BITOP_MEM_REG (R294, R296). -/
def execClrbMemReg (rd : Reg) (d : Bool) (rs : Reg) (s : State) : Out :=
  bitMem .clr (bitEa s d rd) (bitIndex s rs) s

/-- CLRB, BITOP_MEM_OFFSET (R294, R296). -/
def execClrbMemOff (rd : Reg) (d : Bool) (off : BitVec 4) (s : State) : Out :=
  bitMem .clr (bitEa s d rd) off s

/-- INVB, BITOP_REG_REG (R295, R290). -/
def execInvbRegReg (rd : Reg) (rs : Reg) (s : State) : Out :=
  bitReg .inv rd (bitIndex s rs) s

/-- INVB, BITOP_REG_OFFSET (R295, R290). -/
def execInvbRegOff (rd : Reg) (off : BitVec 4) (s : State) : Out :=
  bitReg .inv rd off s

/-- INVB, BITOP_MEM_REG (R295, R296). -/
def execInvbMemReg (rd : Reg) (d : Bool) (rs : Reg) (s : State) : Out :=
  bitMem .inv (bitEa s d rd) (bitIndex s rs) s

/-- INVB, BITOP_MEM_OFFSET (R295, R296). -/
def execInvbMemOff (rd : Reg) (d : Bool) (off : BitVec 4) (s : State) : Out :=
  bitMem .inv (bitEa s d rd) off s

end Sys2Proof.Machine
end

