-- ==== Sys2Proof/Machine/MulDiv.lean ====
section
/-! DEFINITION. The meanings of MUL, MULS, the division steps and EXP (spec 43_muldiv.md). Each takes the state
after `{SR.CS, PC}` has moved to `nextpc` (R28). -/

namespace Sys2Proof.Machine

open Sys2Proof

/-! ### MUL (R260 to R262) -/

/-- The operand Rd of a multiply as an integer: signed for ss (Sd, R260). -/
def mulOpD (k : MulKind) (v : Word) : Int :=
  match k with
  | .uu => v.toNat
  | .us => v.toNat
  | .ss => v.toInt

/-- The operand Rs of a multiply as an integer: signed for us and ss (Ss, R260). -/
def mulOpS (k : MulKind) (v : Word) : Int :=
  match k with
  | .uu => v.toNat
  | .us => v.toInt
  | .ss => v.toInt

/-- Fraction mode, which [1.0] and [1.1] do not have (R34, R262). -/
def State.fraction (s : State) : Bool := s.cfg.ver.is12Plus && s.flags.fra

/-- One product, doubled in fraction mode (R260, R262). -/
def mulProduct (s : State) (k : MulKind) (x y : Word) : Int :=
  if s.fraction then 2 * (mulOpD k x * mulOpS k y) else mulOpD k x * mulOpS k y

/-- The registers MUL takes in [1.0] and [1.1]: R1 to R4, BP (R260). -/
def mulRegAllowed (r : Reg) : Bool :=
  match r with
  | .r1 | .r2 | .r3 | .r4 | .bp => true
  | .sp | .sr | .pc => false

/-- MUL (R260): the product into MR, a free value into the shift buffer in use (U1). -/
def mulRegs (k : MulKind) (rd rs : Reg) (s : State) : Out :=
  if !s.cfg.ver.is12Plus && !(mulRegAllowed rd && mulRegAllowed rs) then .refused .mulOperand
  else .next (s.setMr (BitVec.ofInt 32 (mulProduct s k (s.reg rd) (s.reg rs)))).freeShiftBuf

/-! ### MULS (R261 to R267) -/

/-- The level count (R261). -/
def mulsCount (n : BitVec 4) : Nat := if n = 0#4 then 16 else n.toNat

/-- The registers MULS takes in [1.0] and [1.1]: R1, R2, BP (R266). -/
def mulsRegAllowed (r : Reg) : Bool :=
  match r with
  | .r1 | .r2 | .bp => true
  | .sp | .r3 | .r4 | .sr | .pc => false

/-- The register operands MULS excludes (R266, D26). -/
def mulsExcluded (ver : Version) (count : Nat) (rd rs : Reg) : Bool :=
  if ver.is12Plus then decide (1 < count) && decide (rd = rs) && (decide (rd = .r3) || decide (rd = .r4))
  else !(mulsRegAllowed rd && mulsRegAllowed rs && decide (rd ≠ rs))

/-- EA_d (R263). -/
def mulsEaD (s : State) (rd : Reg) : Addr := mkAddr (if s.cfg.ver = .v13 then s.mds.segD else 0) (s.reg rd)

/-- EA_s (R263). -/
def mulsEaS (s : State) (rs : Reg) : Addr := mkAddr (if s.cfg.ver = .v13 then s.mds.segS else 0) (s.reg rs)

/-- Add one to the pointer Rd; in [1.3] a wrap carries into MDS[13:8] (R263). -/
def mulsStepD (s : State) (rd : Reg) : State :=
  let s1 := if s.cfg.ver = .v13 ∧ s.reg rd = 0xFFFF#16 then { s with mds := { s.mds with segD := s.mds.segD + 1 } } else s
  s1.setReg rd (s.reg rd + 1)

/-- Add one to the pointer Rs; in [1.3] a wrap carries into MDS[5:0] (R263). -/
def mulsStepS (s : State) (rs : Reg) : State :=
  let s1 := if s.cfg.ver = .v13 ∧ s.reg rs = 0xFFFF#16 then { s with mds := { s.mds with segS := s.mds.segS + 1 } } else s
  s1.setReg rs (s.reg rs + 1)

/-- The FIR move of one level: with a word read at the level before, it is stored over this level's (R264, R267). -/
def firStore (s : State) (move : Bool) (rd : Reg) (prev : Option Word) : State :=
  match prev with
  | none => s
  | some p => if move then s.storeWord (mulsEaD s rd) p else s

/-- The levels of MULS: both words are read, the FIR move stores, the product is added, the pointers step (R267). The rule
leaves the two reads of a level unordered; DESIGN CHOICE (log 58): the Rd-side word is read first. -/
def mulsLevels (k : MulKind) (rd rs : Reg) (move : Bool) : Nat → Option Word → Int → State → Int × State
  | 0, _, acc, s => (acc, s)
  | n + 1, prev, acc, s =>
    let x := s.load (mulsEaD s rd)
    let y := x.2.load (mulsEaS s rs)
    let s1 := firStore y.2 move rd prev
    mulsLevels k rd rs move n (some x.1) (acc + mulProduct s k x.1 y.1) (mulsStepS (mulsStepD s1 rd) rs)

/-- The addresses the FIR move stores to: the Rd-side address of every level after the first (R264). -/
def mulsStores (rd rs : Reg) : Nat → State → List Addr
  | 0, _ => []
  | n + 1, s =>
    let s1 := mulsStepS (mulsStepD s rd) rs
    mulsEaD s1 rd :: mulsStores rd rs n s1

/-- Whether the 36-bit sum is not the sign extension of its low 32 bits (R267, D20). -/
def mulsOverflow (acc : BitVec 36) : Bool :=
  decide (acc.extractLsb' 31 5 ≠ 0#5) && decide (acc.extractLsb' 31 5 ≠ 31#5)

/-- The end of MULS: MR; in [1.2+] the guard bits into the shift buffer and S; before, a free shift buffer (R265, R267,
U1). -/
def mulsFinish (acc : BitVec 36) (s : State) : State :=
  let s1 := s.setMr (acc.extractLsb' 0 32)
  if s.cfg.ver.is12Plus then
    let s2 := s1.setShiftBuf (acc.extractLsb' 32 4)
    { s2 with status := { s2.status with s := mulsOverflow acc } }
  else s1.freeShiftBuf

/-- MULS (R267); in [2.0] refused where the FIR move stores over a word fetched ahead (R517). -/
def mulsRegs (k : MulKind) (rd : Reg) (n : BitVec 4) (rs : Reg) (s : State) : Out :=
  let count := mulsCount n
  if mulsExcluded s.cfg.ver count rd rs then .refused .mulsOperand
  else
    let move := !s.flags.fir && decide (1 < count)
    let r := mulsLevels k rd rs move count none 0 s
    storing s (if move then mulsStores rd rs (count - 1) s else []) (mulsFinish (BitVec.ofInt 36 r.1) r.2)

/-! ### The division steps and EXP (R268 to R275) -/

/-- Write FR.AQ. -/
def State.setAq (s : State) (b : Bool) : State := { s with flags := { s.flags with aq := b } }

/-- One DIVS (R269). -/
def divsStep (s : State) : State :=
  let aq := xor (s.reg .r4).msb (s.reg .r2).msb
  (s.setAq aq).setMr ((s.mr <<< 1) ||| (BitVec.ofBool aq).setWidth 32)

/-- One DIVQ (R270). -/
def divqStep (s : State) : State :=
  let r := if s.flags.aq then s.reg .r4 + s.reg .r2 else s.reg .r4 - s.reg .r2
  let aq := xor r.msb (s.reg .r2).msb
  let hi := (r <<< 1) ||| (BitVec.ofBool (s.reg .r3).msb).setWidth 16
  let lo := (s.reg .r3 <<< 1) ||| (BitVec.ofBool (!aq)).setWidth 16
  (s.setAq aq).setMr (hi ++ lo)

/-- `n` DIVQ steps (R274, R275). -/
def divqSteps : Nat → State → State
  | 0, s => s
  | n + 1, s => divqSteps n (divqStep s)

/-- How many of the bits below bit `k` (bit k - 1 first) in a row equal bit 15 (R273). -/
def redundantFrom (v : Word) : Nat → Nat
  | 0 => 0
  | k + 1 => if v.getLsbD k = v.msb then redundantFrom v k + 1 else 0

/-- EXP: the number of redundant sign bits, 0 to 15 (R273). -/
def redundantSigns (v : Word) : Word := BitVec.ofNat 16 (redundantFrom v 15)

/-- MUL.uu, MUL (R260). -/
def execMulUu (rd : Reg) (rs : Reg) (s : State) : Out :=
  mulRegs .uu rd rs s

/-- MUL.us, MUL (R260). -/
def execMulUs (rd : Reg) (rs : Reg) (s : State) : Out :=
  mulRegs .us rd rs s

/-- MUL.ss, MUL (R260). -/
def execMulSs (rd : Reg) (rs : Reg) (s : State) : Out :=
  mulRegs .ss rd rs s

/-- MULS.uu, MULS (R267). -/
def execMulsUu (rd : Reg) (n : BitVec 4) (rs : Reg) (s : State) : Out :=
  mulsRegs .uu rd n rs s

/-- MULS.us, MULS (R267). -/
def execMulsUs (rd : Reg) (n : BitVec 4) (rs : Reg) (s : State) : Out :=
  mulsRegs .us rd n rs s

/-- MULS.ss, MULS (R267). -/
def execMulsSs (rd : Reg) (n : BitVec 4) (rs : Reg) (s : State) : Out :=
  mulsRegs .ss rd n rs s

/-- DIVS, MODE (R269). -/
def execDivs (s : State) : Out :=
  .next (divsStep s)

/-- DIVQ, MODE (R270). -/
def execDivq (s : State) : Out :=
  .next (divqStep s)

/-- EXP, MODE (R273). -/
def execExp (s : State) : Out :=
  .next (s.setReg .r2 (redundantSigns (s.reg .r4)))

end Sys2Proof.Machine
end

