-- ==== Sys2Proof/Machine/Byte13.lean ====
section
/-! DEFINITION. The meanings of the instructions only [1.3] has: byte-mode LOAD and STORE, SS and MDS access, DIVUU,
DIVSS, `BIT_OP {D:}[A16], offset` (spec 48_byte_mode_13.md, 45_segment_flag_access.md R315 to R318, 43_muldiv.md R274,
R275, 44_bitop.md R297). Their words are known only to the abstract decoder DECODE_13 (R139). -/

namespace Sys2Proof.Machine

open Sys2Proof

/-- A byte-mode load at `eba`, with the pointer updates `before` and `after` the access; AdE where misaligned (R381 to
R383, R392, D18). -/
def byteModeLoad (w : Width) (eba : BitVec 23) (before after : State → State) (rd : Reg) (s : State) : Out :=
  if misaligned w eba then .next (s.enter .ade)
  else
    let s1 := before s
    let v := byteLoad s1 w eba
    .next ((after v.2).aluWrite .load rd v.1 v.1)

/-- A byte-mode store of `v` at `eba` (R384 to R387, D18). -/
def byteModeStore (w : Width) (eba : BitVec 23) (before after : State → State) (v : Word) (s : State) : Out :=
  if misaligned w eba then .next (s.enter .ade)
  else .next (after (byteStore (before s) w eba v))

/-- `Rd = B:[R@]`, `Rd = W:[R@]` (R382, R383). -/
def exec13LoadInd (w : Width) (rd : Reg) (m : PtrMode) (x : PairReg) (s : State) : Out :=
  if pairConflict m x rd then .refused .pointerConflict
  else byteModeLoad w (pairEba s w m x) (fun t => pairBefore t w m x) (fun t => pairAfter t w m x) rd s

/-- `B:[R@] = Rd`, `W:[R@] = Rd` (R384, R385). -/
def exec13StoreInd (w : Width) (m : PtrMode) (x : PairReg) (rd : Reg) (s : State) : Out :=
  if pairConflict m x rd then .refused .pointerConflict
  else byteModeStore w (pairEba s w m x) (fun t => pairBefore t w m x) (fun t => pairAfter t w m x) (s.reg rd) s

/-- `B:[R@] = IMM8`, `W:[R@] = IMM16` (R386, R387). -/
def exec13StoreIndImm (w : Width) (m : PtrMode) (x : PairReg) (im : Word) (s : State) : Out :=
  byteModeStore w (pairEba s w m x) (fun t => pairBefore t w m x) (fun t => pairAfter t w m x) im s

/-- `Rd = B:[BP+IM6]`, `Rd = W:[BP+IM6]` (R388, R389). -/
def exec13LoadBp (w : Width) (rd : PairReg) (im : BitVec 6) (s : State) : Out :=
  byteModeLoad w (bpEba s (some (pairLow rd)) im) id id (pairLow rd) s

/-- `B:[BP+IM6] = Rd`, `W:[BP+IM6] = Rd` (R388, R389). -/
def exec13StoreBp (w : Width) (im : BitVec 6) (rd : PairReg) (s : State) : Out :=
  byteModeStore w (bpEba s (some (pairLow rd)) im) id id (s.reg (pairLow rd)) s

/-- `B:[BP+IM6] = IMM8`, `W:[BP+IM6] = IMM16` (R388, R389). -/
def exec13StoreBpImm (w : Width) (im : BitVec 6) (val : Word) (s : State) : Out :=
  byteModeStore w (bpEba s none im) id id val s

/-- `Rd = B:I[R@]`, `Rd = W:I[R@]` (R390, R391). -/
def exec13LoadIdx (w : Width) (rd : Reg) (m : PtrMode) (x : PairReg) (s : State) : Out :=
  if pairConflict m x rd then .refused .pointerConflict
  else byteModeLoad w (Config.ebaI s x m) (fun t => pairBefore t w m x) (fun t => pairAfter t w m x) rd s

/-- `B:I[R@] = Rd`, `W:I[R@] = Rd` (R390, R391). -/
def exec13StoreIdx (w : Width) (m : PtrMode) (x : PairReg) (rd : Reg) (s : State) : Out :=
  if pairConflict m x rd then .refused .pointerConflict
  else byteModeStore w (Config.ebaI s x m) (fun t => pairBefore t w m x) (fun t => pairAfter t w m x) (s.reg rd) s

/-- `B:I[R@] = IMM8`, `W:I[R@] = IMM16` (R390, R391). -/
def exec13StoreIdxImm (w : Width) (m : PtrMode) (x : PairReg) (im : Word) (s : State) : Out :=
  byteModeStore w (Config.ebaI s x m) (fun t => pairBefore t w m x) (fun t => pairAfter t w m x) im s

/-- `Rs = SS` (R315, R319). -/
def exec13RsEqSs (rs : Reg) (s : State) : Out :=
  if rs = .pc then .refused .specialToPc else .next (s.setReg rs (s.ss.setWidth 16))

/-- `SS = Rs` (R316). -/
def exec13SsEqRs (rs : Reg) (s : State) : Out := .next { s with ss := (s.reg rs).extractLsb' 0 6 }

/-- `MDS = R3` (R317). -/
def exec13MdsEqR3 (s : State) : Out := .next (s.setMds (s.reg .r3))

/-- `R3 = MDS` (R318). -/
def exec13R3EqMds (s : State) : Out := .next (s.setReg .r3 s.mdsWord)

/-- `DIVUU MR, R2`: AQ <- 0, then sixteen DIVQ steps (R274, D22; log 37). -/
def exec13Divuu (s : State) : Out := .next (divqSteps 16 (s.setAq false))

/-- `DIVSS MR, R2`: one DIVS step, then fifteen DIVQ steps (R275). -/
def exec13Divss (s : State) : Out := .next (divqSteps 15 (divsStep s))

/-- `BIT_OP {D:}[A16], offset` (R297). -/
def exec13BitA16 (op : BitOp) (d : Bool) (off : BitVec 4) (a : Word) (s : State) : Out :=
  bitMem op (mkAddr (dataPage s d) a) off s

/-- What an instruction only [1.3] has does. -/
def exec13 (i : Instr13) (s : State) : Out :=
  match i with
  | .loadInd w rd m x => exec13LoadInd w rd m x s
  | .storeInd w m x rd => exec13StoreInd w m x rd s
  | .storeIndImm w m x im => exec13StoreIndImm w m x im s
  | .loadBp w rd im => exec13LoadBp w rd im s
  | .storeBp w im rd => exec13StoreBp w im rd s
  | .storeBpImm w im val => exec13StoreBpImm w im val s
  | .loadIdx w rd m x => exec13LoadIdx w rd m x s
  | .storeIdx w m x rd => exec13StoreIdx w m x rd s
  | .storeIdxImm w m x im => exec13StoreIdxImm w m x im s
  | .rsEqSs rs => exec13RsEqSs rs s
  | .ssEqRs rs => exec13SsEqRs rs s
  | .mdsEqR3 => exec13MdsEqR3 s
  | .r3EqMds => exec13R3EqMds s
  | .divuu => exec13Divuu s
  | .divss => exec13Divss s
  | .bitA16 op d off a => exec13BitA16 op d off a s

end Sys2Proof.Machine
end

