-- ==== Sys2Proof/Machine/Arith.lean ====
section
/-! DEFINITION. The meanings of ADD, ADC, SUB, SBC, CMP, NEG on the base forms (spec 41_alu.md R203 to R208). Each takes the state
after `{SR.CS, PC}` has moved to `nextpc` (R28). -/

namespace Sys2Proof.Machine

open Sys2Proof

/-- ADD, BP_IM6 (R203, R83). -/
def execAddBpIm6 (rd : Reg) (im : BitVec 6) (s : State) : Out :=
  aluBpIm6 .add rd im s

/-- ADD, IM6 (R203, R81). -/
def execAddIm6 (rd : Reg) (im : BitVec 6) (s : State) : Out :=
  aluIm6 .add rd im s

/-- ADD, DS_INDIRECT (R203, R86, R87). -/
def execAddInd (rd : Reg) (d : Bool) (m : PtrMode) (rs : Reg) (s : State) : Out :=
  aluInd .add rd d m rs s

/-- ADD, REGISTER (R203, R88). -/
def execAddReg (rd : Reg) (rs : Reg) (s : State) : Out :=
  aluReg .add rd rs s

/-- ADD, IM16 (R203, R82). -/
def execAddIm16 (rd : Reg) (rs : Reg) (im : Word) (s : State) : Out :=
  aluIm16 .add rd rs im s

/-- ADD, A16_W0, A16_W1 (R203, R85, R219). -/
def execAddA16 (w : Bool) (rd : Reg) (rs : Reg) (a : Word) (s : State) : Out :=
  aluA16 .add w rd rs a s

/-- ADD, REGISTER_ASR, _LSL, _LSR, _ROL, _ROR (R203, R213 to R218). -/
def execAddShift (k : Shift4) (rd : Reg) (nn : BitVec 2) (rs : Reg) (s : State) : Out :=
  aluShift .add k rd nn rs s

/-- ADD, A6 (R203, R84). -/
def execAddA6 (rd : Reg) (a : BitVec 6) (s : State) : Out :=
  aluA6 .add rd a s

/-- ADC, BP_IM6 (R204, R83). -/
def execAdcBpIm6 (rd : Reg) (im : BitVec 6) (s : State) : Out :=
  aluBpIm6 .adc rd im s

/-- ADC, IM6 (R204, R81). -/
def execAdcIm6 (rd : Reg) (im : BitVec 6) (s : State) : Out :=
  aluIm6 .adc rd im s

/-- ADC, DS_INDIRECT (R204, R86, R87). -/
def execAdcInd (rd : Reg) (d : Bool) (m : PtrMode) (rs : Reg) (s : State) : Out :=
  aluInd .adc rd d m rs s

/-- ADC, REGISTER (R204, R88). -/
def execAdcReg (rd : Reg) (rs : Reg) (s : State) : Out :=
  aluReg .adc rd rs s

/-- ADC, IM16 (R204, R82). -/
def execAdcIm16 (rd : Reg) (rs : Reg) (im : Word) (s : State) : Out :=
  aluIm16 .adc rd rs im s

/-- ADC, A16_W0, A16_W1 (R204, R85, R219). -/
def execAdcA16 (w : Bool) (rd : Reg) (rs : Reg) (a : Word) (s : State) : Out :=
  aluA16 .adc w rd rs a s

/-- ADC, REGISTER_ASR, _LSL, _LSR, _ROL, _ROR (R204, R213 to R218). -/
def execAdcShift (k : Shift4) (rd : Reg) (nn : BitVec 2) (rs : Reg) (s : State) : Out :=
  aluShift .adc k rd nn rs s

/-- ADC, A6 (R204, R84). -/
def execAdcA6 (rd : Reg) (a : BitVec 6) (s : State) : Out :=
  aluA6 .adc rd a s

/-- SUB, BP_IM6 (R205, R83). -/
def execSubBpIm6 (rd : Reg) (im : BitVec 6) (s : State) : Out :=
  aluBpIm6 .sub rd im s

/-- SUB, IM6 (R205, R81). -/
def execSubIm6 (rd : Reg) (im : BitVec 6) (s : State) : Out :=
  aluIm6 .sub rd im s

/-- SUB, DS_INDIRECT (R205, R86, R87). -/
def execSubInd (rd : Reg) (d : Bool) (m : PtrMode) (rs : Reg) (s : State) : Out :=
  aluInd .sub rd d m rs s

/-- SUB, REGISTER (R205, R88). -/
def execSubReg (rd : Reg) (rs : Reg) (s : State) : Out :=
  aluReg .sub rd rs s

/-- SUB, IM16 (R205, R82). -/
def execSubIm16 (rd : Reg) (rs : Reg) (im : Word) (s : State) : Out :=
  aluIm16 .sub rd rs im s

/-- SUB, A16_W0, A16_W1 (R205, R85, R219). -/
def execSubA16 (w : Bool) (rd : Reg) (rs : Reg) (a : Word) (s : State) : Out :=
  aluA16 .sub w rd rs a s

/-- SUB, REGISTER_ASR, _LSL, _LSR, _ROL, _ROR (R205, R213 to R218). -/
def execSubShift (k : Shift4) (rd : Reg) (nn : BitVec 2) (rs : Reg) (s : State) : Out :=
  aluShift .sub k rd nn rs s

/-- SUB, A6 (R205, R84). -/
def execSubA6 (rd : Reg) (a : BitVec 6) (s : State) : Out :=
  aluA6 .sub rd a s

/-- SBC, BP_IM6 (R206, R83). -/
def execSbcBpIm6 (rd : Reg) (im : BitVec 6) (s : State) : Out :=
  aluBpIm6 .sbc rd im s

/-- SBC, IM6 (R206, R81). -/
def execSbcIm6 (rd : Reg) (im : BitVec 6) (s : State) : Out :=
  aluIm6 .sbc rd im s

/-- SBC, DS_INDIRECT (R206, R86, R87). -/
def execSbcInd (rd : Reg) (d : Bool) (m : PtrMode) (rs : Reg) (s : State) : Out :=
  aluInd .sbc rd d m rs s

/-- SBC, REGISTER (R206, R88). -/
def execSbcReg (rd : Reg) (rs : Reg) (s : State) : Out :=
  aluReg .sbc rd rs s

/-- SBC, IM16 (R206, R82). -/
def execSbcIm16 (rd : Reg) (rs : Reg) (im : Word) (s : State) : Out :=
  aluIm16 .sbc rd rs im s

/-- SBC, A16_W0, A16_W1 (R206, R85, R219). -/
def execSbcA16 (w : Bool) (rd : Reg) (rs : Reg) (a : Word) (s : State) : Out :=
  aluA16 .sbc w rd rs a s

/-- SBC, REGISTER_ASR, _LSL, _LSR, _ROL, _ROR (R206, R213 to R218). -/
def execSbcShift (k : Shift4) (rd : Reg) (nn : BitVec 2) (rs : Reg) (s : State) : Out :=
  aluShift .sbc k rd nn rs s

/-- SBC, A6 (R206, R84). -/
def execSbcA6 (rd : Reg) (a : BitVec 6) (s : State) : Out :=
  aluA6 .sbc rd a s

/-- CMP, BP_IM6 (R208, R83). -/
def execCmpBpIm6 (rd : Reg) (im : BitVec 6) (s : State) : Out :=
  aluBpIm6 .cmp rd im s

/-- CMP, IM6 (R208, R81). -/
def execCmpIm6 (rd : Reg) (im : BitVec 6) (s : State) : Out :=
  aluIm6 .cmp rd im s

/-- CMP, DS_INDIRECT (R208, R86, R87). -/
def execCmpInd (rd : Reg) (d : Bool) (m : PtrMode) (rs : Reg) (s : State) : Out :=
  aluInd .cmp rd d m rs s

/-- CMP, REGISTER (R208, R88). -/
def execCmpReg (rd : Reg) (rs : Reg) (s : State) : Out :=
  aluReg .cmp rd rs s

/-- CMP, IM16 (R208, R82). -/
def execCmpIm16 (rd : Reg) (rs : Reg) (im : Word) (s : State) : Out :=
  aluIm16 .cmp rd rs im s

/-- CMP, A16_W0, A16_W1 (R208, R85, R219). -/
def execCmpA16 (w : Bool) (rd : Reg) (rs : Reg) (a : Word) (s : State) : Out :=
  aluA16 .cmp w rd rs a s

/-- CMP, REGISTER_ASR, _LSL, _LSR, _ROL, _ROR (R208, R213 to R218). -/
def execCmpShift (k : Shift4) (rd : Reg) (nn : BitVec 2) (rs : Reg) (s : State) : Out :=
  aluShift .cmp k rd nn rs s

/-- CMP, A6 (R208, R84). -/
def execCmpA6 (rd : Reg) (a : BitVec 6) (s : State) : Out :=
  aluA6 .cmp rd a s

/-- NEG, BP_IM6 (R207, R83). -/
def execNegBpIm6 (rd : Reg) (im : BitVec 6) (s : State) : Out :=
  aluBpIm6 .neg rd im s

/-- NEG, IM6 (R207, R81). -/
def execNegIm6 (rd : Reg) (im : BitVec 6) (s : State) : Out :=
  aluIm6 .neg rd im s

/-- NEG, DS_INDIRECT (R207, R86, R87). -/
def execNegInd (rd : Reg) (d : Bool) (m : PtrMode) (rs : Reg) (s : State) : Out :=
  aluInd .neg rd d m rs s

/-- NEG, REGISTER (R207, R88). -/
def execNegReg (rd : Reg) (rs : Reg) (s : State) : Out :=
  aluReg .neg rd rs s

/-- NEG, IM16 (R207, R82). -/
def execNegIm16 (rd : Reg) (rs : Reg) (im : Word) (s : State) : Out :=
  aluIm16 .neg rd rs im s

/-- NEG, A16_W0, A16_W1 (R207, R85, R219). -/
def execNegA16 (w : Bool) (rd : Reg) (rs : Reg) (a : Word) (s : State) : Out :=
  aluA16 .neg w rd rs a s

/-- NEG, REGISTER_ASR, _LSL, _LSR, _ROL, _ROR (R207, R213 to R218). -/
def execNegShift (k : Shift4) (rd : Reg) (nn : BitVec 2) (rs : Reg) (s : State) : Out :=
  aluShift .neg k rd nn rs s

/-- NEG, A6 (R207, R84). -/
def execNegA6 (rd : Reg) (a : BitVec 6) (s : State) : Out :=
  aluA6 .neg rd a s

end Sys2Proof.Machine
end

