-- ==== Sys2Proof/Machine/Control.lean ====
section
/-! DEFINITION. The meanings of branches, GOTO, CALL, RETF, RETI, BREAK (spec 46_control_transfer.md). Each takes the state
after `{SR.CS, PC}` has moved to `nextpc` (R28). -/

namespace Sys2Proof.Machine

open Sys2Proof

/-- The target of CALL MR and GOTO MR: {R4[5:0], R3} (R332, R353). -/
def mrTarget (s : State) : Addr := mkAddr ((s.reg .r4).extractLsb' 0 6) (s.reg .r3)

/-- A call (R331, R332): PC and SR are pushed, then the jump; in [2.0] refused where a pushed word is one of those fetched
ahead (R517). -/
def callTo (t : Addr) (s : State) : Out := storing s (s.stackAddrs (.core .sp) 2) (s.pushReturn.jump t)

/-- The target of a branch: IM6 words after or before `nextpc`; in [1.0] inside the page (R335, R90). -/
def branchTarget (s : State) (back : Bool) (im : BitVec 6) : Addr :=
  let t := if back then s.nextPc - im.setWidth 22 else s.nextPc + im.setWidth 22
  if s.cfg.ver = .v10 then mkAddr s.status.cs (offsetOf t) else t

/-- A branch (R335). -/
def branch (c : Cond) (back : Bool) (im : BitVec 6) (s : State) : Out :=
  if condHolds c s.status then .next (s.jump (branchTarget s back im)) else .next s

/-- JCC, BRANCH (R336, R335). -/
def execJcc (back : Bool) (im : BitVec 6) (s : State) : Out :=
  branch .cc back im s

/-- JCS, BRANCH (R337, R335). -/
def execJcs (back : Bool) (im : BitVec 6) (s : State) : Out :=
  branch .cs back im s

/-- JSC, BRANCH (R338, R335). -/
def execJsc (back : Bool) (im : BitVec 6) (s : State) : Out :=
  branch .sc back im s

/-- JSS, BRANCH (R339, R335). -/
def execJss (back : Bool) (im : BitVec 6) (s : State) : Out :=
  branch .ss back im s

/-- JNE, BRANCH (R340, R335). -/
def execJne (back : Bool) (im : BitVec 6) (s : State) : Out :=
  branch .ne back im s

/-- JZ, BRANCH (R341, R335). -/
def execJz (back : Bool) (im : BitVec 6) (s : State) : Out :=
  branch .z back im s

/-- JPL, BRANCH (R342, R335). -/
def execJpl (back : Bool) (im : BitVec 6) (s : State) : Out :=
  branch .pl back im s

/-- JMI, BRANCH (R343, R335). -/
def execJmi (back : Bool) (im : BitVec 6) (s : State) : Out :=
  branch .mi back im s

/-- JBE, BRANCH (R344, R335). -/
def execJbe (back : Bool) (im : BitVec 6) (s : State) : Out :=
  branch .be back im s

/-- JNBE, BRANCH (R345, R335). -/
def execJnbe (back : Bool) (im : BitVec 6) (s : State) : Out :=
  branch .nbe back im s

/-- JLE, BRANCH (R346, R335). -/
def execJle (back : Bool) (im : BitVec 6) (s : State) : Out :=
  branch .le back im s

/-- JNLE, BRANCH (R347, R335). -/
def execJnle (back : Bool) (im : BitVec 6) (s : State) : Out :=
  branch .nle back im s

/-- JVC, BRANCH (R348, R335). -/
def execJvc (back : Bool) (im : BitVec 6) (s : State) : Out :=
  branch .vc back im s

/-- JVS, BRANCH (R349, R335). -/
def execJvs (back : Bool) (im : BitVec 6) (s : State) : Out :=
  branch .vs back im s

/-- JMP, BRANCH (R350, R335). -/
def execJmp (back : Bool) (im : BitVec 6) (s : State) : Out :=
  branch .always back im s

/-- GOTO, A22 (R352). -/
def execGoto (hi : Page) (lo : Word) (s : State) : Out :=
  .next (s.jump (mkAddr hi lo))

/-- CALL, A22 (R331). -/
def execCall (hi : Page) (lo : Word) (s : State) : Out :=
  callTo (mkAddr hi lo) s

/-- RETF, FIXED (R333). -/
def execRetf (s : State) : Out :=
  .next s.returnFar

/-- RETI, FIXED (R334). -/
def execReti (s : State) : Out :=
  .next s.returnInt

/-- GOTO_MR, MR (R353). -/
def execGotoMr (s : State) : Out :=
  .next (s.jump (mrTarget s))

/-- BREAK, MODE (R351). -/
def execBrk (s : State) : Out :=
  storing s (s.stackAddrs (.core .sp) 2) (s.enter .brk)

/-- CALL_MR, MODE (R332). -/
def execCallMr (s : State) : Out :=
  callTo (mrTarget s) s

end Sys2Proof.Machine
end

