-- ==== Sys2Proof/Machine/DataTransfer.lean ====
section
/-! DEFINITION. The meanings of LOAD, STORE, PUSH, POP (spec 40_data_transfer.md). Each takes the state
after `{SR.CS, PC}` has moved to `nextpc` (R28). -/

namespace Sys2Proof.Machine

open Sys2Proof

/-- LOAD, BP_IM6 (R170, R83). -/
def execLoadBpIm6 (rd : Reg) (im : BitVec 6) (s : State) : Out :=
  aluBpIm6 .load rd im s

/-- LOAD, IM6 (R170, R81). -/
def execLoadIm6 (rd : Reg) (im : BitVec 6) (s : State) : Out :=
  aluIm6 .load rd im s

/-- LOAD, DS_INDIRECT (R170, R86, R87). -/
def execLoadInd (rd : Reg) (d : Bool) (m : PtrMode) (rs : Reg) (s : State) : Out :=
  aluInd .load rd d m rs s

/-- LOAD, REGISTER (R170, R88). -/
def execLoadReg (rd : Reg) (rs : Reg) (s : State) : Out :=
  aluReg .load rd rs s

/-- LOAD, IM16 (R170, R82). -/
def execLoadIm16 (rd : Reg) (rs : Reg) (im : Word) (s : State) : Out :=
  aluIm16 .load rd rs im s

/-- LOAD, A16_W0 (R170, R85). -/
def execLoadA16 (rd : Reg) (rs : Reg) (a : Word) (s : State) : Out :=
  aluA16 .load false rd rs a s

/-- LOAD, REGISTER_ASR, _LSL, _LSR, _ROL, _ROR (R170, R213 to R218). -/
def execLoadShift (k : Shift4) (rd : Reg) (nn : BitVec 2) (rs : Reg) (s : State) : Out :=
  aluShift .load k rd nn rs s

/-- LOAD, A6 (R170, R84). -/
def execLoadA6 (rd : Reg) (a : BitVec 6) (s : State) : Out :=
  aluA6 .load rd a s

/-- STORE, BP_IM6 (R171, R83). -/
def execStoreBpIm6 (rd : Reg) (im : BitVec 6) (s : State) : Out :=
  storeAt (bpEa s im) (s.reg rd) s

/-- STORE, DS_INDIRECT (R171, R86, R87). -/
def execStoreInd (rd : Reg) (d : Bool) (m : PtrMode) (rs : Reg) (s : State) : Out :=
  if ptrConflict m rd rs then .refused .pointerConflict else storeVia d m (.core rs) (.core rd) s

/-- STORE, A16_W0 (R171, R85). -/
def execStoreA16 (rd : Reg) (_rs : Reg) (a : Word) (s : State) : Out :=
  storeAt (a16Ea a) (s.reg rd) s

/-- STORE, A6 (R171, R84). -/
def execStoreA6 (rd : Reg) (a : BitVec 6) (s : State) : Out :=
  storeAt (a6Ea a) (s.reg rd) s

/-- PUSH, MULTI_INDIRECT (R172). -/
def execPush (rd : Reg) (n : BitVec 3) (rs : Reg) (s : State) : Out :=
  if n = 0#3 ∨ rd.num.toNat + 1 < n.toNat then .refused .pushPopSet
  else if GReg.core rs ∈ pushSet rd n then .refused .pointerInSet
  else pushList (.core rs) (pushSet rd n).reverse s

/-- POP, MULTI_INDIRECT (R173). -/
def execPop (rd : Reg) (n : BitVec 3) (rs : Reg) (s : State) : Out :=
  if n = 0#3 ∨ 7 < rd.num.toNat + n.toNat then .refused .pushPopSet
  else if GReg.core rs ∈ popSet rd n then .refused .pointerInSet
  else .next (popPage (.core rs) (popSet rd n) s (popRegs (.core rs) (popSet rd n) s))

end Sys2Proof.Machine
end

