-- ==== Sys2Proof/Machine/Ext.lean ====
section
/-! DEFINITION. The meanings of extended STORE, PUSH and POP of [2.0], and the prefix before a word of no row (spec 49_extended_20.md R410, R416 to R418). Each takes the state
after `{SR.CS, PC}` has moved to `nextpc` (R28). -/

namespace Sys2Proof.Machine

open Sys2Proof

/-- EXT_PREFIX, PREFIX (R410). -/
def execExtPrefix (_e : Word) (_s : State) : Out :=
  .refused .extUnassigned

/-- EXT.STORE, EXT_A16_W0 (R416). -/
def execExtStoreA16 (ra : GReg) (_rb : GReg) (a : Word) (s : State) : Out :=
  storeAt (a16Ea a) (s.greg ra) s

/-- EXT.STORE, EXT_DS_INDIRECT (R416, R413). -/
def execExtStoreInd (rx : XReg) (d : Bool) (m : PtrMode) (ry : XReg) (s : State) : Out :=
  if m ≠ .keep ∧ rx = ry then .refused .pointerConflict else storeVia d m (.ext ry) (.ext rx) s

/-- EXT.STORE, EXT_BASE_DISP6 (R416). -/
def execExtStoreBpIm6 (rx : XReg) (im : BitVec 6) (s : State) : Out :=
  storeAt (bpEa s im) (s.xreg rx) s

/-- EXT.STORE, EXT_A6 (R416). -/
def execExtStoreA6 (rx : XReg) (a : BitVec 6) (s : State) : Out :=
  storeAt (a6Ea a) (s.xreg rx) s

/-- EXT.PUSH, EXT_PUSH_POP (R417). -/
def execExtPush (n : BitVec 3) (rx : XReg) (rb : GReg) (s : State) : Out :=
  if n = 0#3 ∨ rx.num.toNat + 1 < n.toNat then .refused .pushPopSet
  else if rb ∈ extPushSet rx n then .refused .pointerInSet
  else pushList rb (extPushSet rx n).reverse s

/-- EXT.POP, EXT_PUSH_POP (R418). -/
def execExtPop (n : BitVec 3) (fld : BitVec 3) (rb : GReg) (s : State) : Out :=
  if n = 0#3 ∨ 8 < extPopFirst s.cfg fld + n.toNat then .refused .pushPopSet
  else if rb ∈ extPopSet s.cfg fld n then .refused .pointerInSet
  else .next (popRegs rb (extPopSet s.cfg fld n) s)

end Sys2Proof.Machine
end

