-- ==== Sys2Proof/Machine/ExtAlu.lean ====
section
/-! DEFINITION. The meanings of the extended ALU instructions of [2.0], LOAD among them (spec 49_extended_20.md R415, R420 to R429). Each takes the state
after `{SR.CS, PC}` has moved to `nextpc` (R28). -/

namespace Sys2Proof.Machine

open Sys2Proof

/-- EXT.ADD, EXT_REGISTER (R420, R412). -/
def execExtAddReg (ra : GReg) (rb : GReg) (s : State) : Out :=
  extReg .add ra rb s

/-- EXT.ADD, EXT_IMM16 (R420, R412). -/
def execExtAddIm16 (ra : GReg) (rb : GReg) (im : Word) (s : State) : Out :=
  extIm16 .add ra rb im s

/-- EXT.ADD, EXT_A16_W0, EXT_A16_W1 (R420, R412, R219). -/
def execExtAddA16 (w : Bool) (ra : GReg) (rb : GReg) (a : Word) (s : State) : Out :=
  extA16 .add w ra rb a s

/-- EXT.ADD, EXT_DS_INDIRECT (R420, R413). -/
def execExtAddInd (rx : XReg) (d : Bool) (m : PtrMode) (ry : XReg) (s : State) : Out :=
  extInd .add rx d m ry s

/-- EXT.ADD, EXT_IM6 (R420, R412). -/
def execExtAddIm6 (rx : XReg) (im : BitVec 6) (s : State) : Out :=
  extIm6 .add rx im s

/-- EXT.ADD, EXT_BASE_DISP6 (R420, R412). -/
def execExtAddBpIm6 (rx : XReg) (im : BitVec 6) (s : State) : Out :=
  extBpIm6 .add rx im s

/-- EXT.ADD, EXT_A6 (R420, R412). -/
def execExtAddA6 (rx : XReg) (a : BitVec 6) (s : State) : Out :=
  extA6 .add rx a s

/-- EXT.ADC, EXT_REGISTER (R421, R412). -/
def execExtAdcReg (ra : GReg) (rb : GReg) (s : State) : Out :=
  extReg .adc ra rb s

/-- EXT.ADC, EXT_IMM16 (R421, R412). -/
def execExtAdcIm16 (ra : GReg) (rb : GReg) (im : Word) (s : State) : Out :=
  extIm16 .adc ra rb im s

/-- EXT.ADC, EXT_A16_W0, EXT_A16_W1 (R421, R412, R219). -/
def execExtAdcA16 (w : Bool) (ra : GReg) (rb : GReg) (a : Word) (s : State) : Out :=
  extA16 .adc w ra rb a s

/-- EXT.ADC, EXT_DS_INDIRECT (R421, R413). -/
def execExtAdcInd (rx : XReg) (d : Bool) (m : PtrMode) (ry : XReg) (s : State) : Out :=
  extInd .adc rx d m ry s

/-- EXT.ADC, EXT_IM6 (R421, R412). -/
def execExtAdcIm6 (rx : XReg) (im : BitVec 6) (s : State) : Out :=
  extIm6 .adc rx im s

/-- EXT.ADC, EXT_BASE_DISP6 (R421, R412). -/
def execExtAdcBpIm6 (rx : XReg) (im : BitVec 6) (s : State) : Out :=
  extBpIm6 .adc rx im s

/-- EXT.ADC, EXT_A6 (R421, R412). -/
def execExtAdcA6 (rx : XReg) (a : BitVec 6) (s : State) : Out :=
  extA6 .adc rx a s

/-- EXT.SUB, EXT_REGISTER (R422, R412). -/
def execExtSubReg (ra : GReg) (rb : GReg) (s : State) : Out :=
  extReg .sub ra rb s

/-- EXT.SUB, EXT_IMM16 (R422, R412). -/
def execExtSubIm16 (ra : GReg) (rb : GReg) (im : Word) (s : State) : Out :=
  extIm16 .sub ra rb im s

/-- EXT.SUB, EXT_A16_W0, EXT_A16_W1 (R422, R412, R219). -/
def execExtSubA16 (w : Bool) (ra : GReg) (rb : GReg) (a : Word) (s : State) : Out :=
  extA16 .sub w ra rb a s

/-- EXT.SUB, EXT_DS_INDIRECT (R422, R413). -/
def execExtSubInd (rx : XReg) (d : Bool) (m : PtrMode) (ry : XReg) (s : State) : Out :=
  extInd .sub rx d m ry s

/-- EXT.SUB, EXT_IM6 (R422, R412). -/
def execExtSubIm6 (rx : XReg) (im : BitVec 6) (s : State) : Out :=
  extIm6 .sub rx im s

/-- EXT.SUB, EXT_BASE_DISP6 (R422, R412). -/
def execExtSubBpIm6 (rx : XReg) (im : BitVec 6) (s : State) : Out :=
  extBpIm6 .sub rx im s

/-- EXT.SUB, EXT_A6 (R422, R412). -/
def execExtSubA6 (rx : XReg) (a : BitVec 6) (s : State) : Out :=
  extA6 .sub rx a s

/-- EXT.SBC, EXT_REGISTER (R423, R412). -/
def execExtSbcReg (ra : GReg) (rb : GReg) (s : State) : Out :=
  extReg .sbc ra rb s

/-- EXT.SBC, EXT_IMM16 (R423, R412). -/
def execExtSbcIm16 (ra : GReg) (rb : GReg) (im : Word) (s : State) : Out :=
  extIm16 .sbc ra rb im s

/-- EXT.SBC, EXT_A16_W0, EXT_A16_W1 (R423, R412, R219). -/
def execExtSbcA16 (w : Bool) (ra : GReg) (rb : GReg) (a : Word) (s : State) : Out :=
  extA16 .sbc w ra rb a s

/-- EXT.SBC, EXT_DS_INDIRECT (R423, R413). -/
def execExtSbcInd (rx : XReg) (d : Bool) (m : PtrMode) (ry : XReg) (s : State) : Out :=
  extInd .sbc rx d m ry s

/-- EXT.SBC, EXT_IM6 (R423, R412). -/
def execExtSbcIm6 (rx : XReg) (im : BitVec 6) (s : State) : Out :=
  extIm6 .sbc rx im s

/-- EXT.SBC, EXT_BASE_DISP6 (R423, R412). -/
def execExtSbcBpIm6 (rx : XReg) (im : BitVec 6) (s : State) : Out :=
  extBpIm6 .sbc rx im s

/-- EXT.SBC, EXT_A6 (R423, R412). -/
def execExtSbcA6 (rx : XReg) (a : BitVec 6) (s : State) : Out :=
  extA6 .sbc rx a s

/-- EXT.CMP, EXT_REGISTER (R425, R412). -/
def execExtCmpReg (ra : GReg) (rb : GReg) (s : State) : Out :=
  extReg .cmp ra rb s

/-- EXT.CMP, EXT_IMM16 (R425, R412). -/
def execExtCmpIm16 (ra : GReg) (rb : GReg) (im : Word) (s : State) : Out :=
  extIm16 .cmp ra rb im s

/-- EXT.CMP, EXT_A16_W0, EXT_A16_W1 (R425, R412, R219). -/
def execExtCmpA16 (w : Bool) (ra : GReg) (rb : GReg) (a : Word) (s : State) : Out :=
  extA16 .cmp w ra rb a s

/-- EXT.CMP, EXT_DS_INDIRECT (R425, R413). -/
def execExtCmpInd (rx : XReg) (d : Bool) (m : PtrMode) (ry : XReg) (s : State) : Out :=
  extInd .cmp rx d m ry s

/-- EXT.CMP, EXT_IM6 (R425, R412). -/
def execExtCmpIm6 (rx : XReg) (im : BitVec 6) (s : State) : Out :=
  extIm6 .cmp rx im s

/-- EXT.CMP, EXT_BASE_DISP6 (R425, R412). -/
def execExtCmpBpIm6 (rx : XReg) (im : BitVec 6) (s : State) : Out :=
  extBpIm6 .cmp rx im s

/-- EXT.CMP, EXT_A6 (R425, R412). -/
def execExtCmpA6 (rx : XReg) (a : BitVec 6) (s : State) : Out :=
  extA6 .cmp rx a s

/-- EXT.NEG, EXT_REGISTER (R424, R412). -/
def execExtNegReg (ra : GReg) (rb : GReg) (s : State) : Out :=
  extReg .neg ra rb s

/-- EXT.NEG, EXT_IMM16 (R424, R412). -/
def execExtNegIm16 (ra : GReg) (rb : GReg) (im : Word) (s : State) : Out :=
  extIm16 .neg ra rb im s

/-- EXT.NEG, EXT_A16_W0, EXT_A16_W1 (R424, R412, R219). -/
def execExtNegA16 (w : Bool) (ra : GReg) (rb : GReg) (a : Word) (s : State) : Out :=
  extA16 .neg w ra rb a s

/-- EXT.NEG, EXT_DS_INDIRECT (R424, R413). -/
def execExtNegInd (rx : XReg) (d : Bool) (m : PtrMode) (ry : XReg) (s : State) : Out :=
  extInd .neg rx d m ry s

/-- EXT.NEG, EXT_IM6 (R424, R412). -/
def execExtNegIm6 (rx : XReg) (im : BitVec 6) (s : State) : Out :=
  extIm6 .neg rx im s

/-- EXT.NEG, EXT_BASE_DISP6 (R424, R412). -/
def execExtNegBpIm6 (rx : XReg) (im : BitVec 6) (s : State) : Out :=
  extBpIm6 .neg rx im s

/-- EXT.NEG, EXT_A6 (R424, R412). -/
def execExtNegA6 (rx : XReg) (a : BitVec 6) (s : State) : Out :=
  extA6 .neg rx a s

/-- EXT.XOR, EXT_REGISTER (R428, R412). -/
def execExtXorReg (ra : GReg) (rb : GReg) (s : State) : Out :=
  extReg .xor ra rb s

/-- EXT.XOR, EXT_IMM16 (R428, R412). -/
def execExtXorIm16 (ra : GReg) (rb : GReg) (im : Word) (s : State) : Out :=
  extIm16 .xor ra rb im s

/-- EXT.XOR, EXT_A16_W0, EXT_A16_W1 (R428, R412, R219). -/
def execExtXorA16 (w : Bool) (ra : GReg) (rb : GReg) (a : Word) (s : State) : Out :=
  extA16 .xor w ra rb a s

/-- EXT.XOR, EXT_DS_INDIRECT (R428, R413). -/
def execExtXorInd (rx : XReg) (d : Bool) (m : PtrMode) (ry : XReg) (s : State) : Out :=
  extInd .xor rx d m ry s

/-- EXT.XOR, EXT_IM6 (R428, R412). -/
def execExtXorIm6 (rx : XReg) (im : BitVec 6) (s : State) : Out :=
  extIm6 .xor rx im s

/-- EXT.XOR, EXT_BASE_DISP6 (R428, R412). -/
def execExtXorBpIm6 (rx : XReg) (im : BitVec 6) (s : State) : Out :=
  extBpIm6 .xor rx im s

/-- EXT.XOR, EXT_A6 (R428, R412). -/
def execExtXorA6 (rx : XReg) (a : BitVec 6) (s : State) : Out :=
  extA6 .xor rx a s

/-- EXT.LOAD, EXT_REGISTER (R415, R412). -/
def execExtLoadReg (ra : GReg) (rb : GReg) (s : State) : Out :=
  extReg .load ra rb s

/-- EXT.LOAD, EXT_IMM16 (R415, R412). -/
def execExtLoadIm16 (ra : GReg) (rb : GReg) (im : Word) (s : State) : Out :=
  extIm16 .load ra rb im s

/-- EXT.LOAD, EXT_A16_W0 (R415, R412). -/
def execExtLoadA16 (ra : GReg) (rb : GReg) (a : Word) (s : State) : Out :=
  extA16 .load false ra rb a s

/-- EXT.LOAD, EXT_DS_INDIRECT (R415, R413). -/
def execExtLoadInd (rx : XReg) (d : Bool) (m : PtrMode) (ry : XReg) (s : State) : Out :=
  extInd .load rx d m ry s

/-- EXT.LOAD, EXT_IM6 (R415, R412). -/
def execExtLoadIm6 (rx : XReg) (im : BitVec 6) (s : State) : Out :=
  extIm6 .load rx im s

/-- EXT.LOAD, EXT_BASE_DISP6 (R415, R412). -/
def execExtLoadBpIm6 (rx : XReg) (im : BitVec 6) (s : State) : Out :=
  extBpIm6 .load rx im s

/-- EXT.LOAD, EXT_A6 (R415, R412). -/
def execExtLoadA6 (rx : XReg) (a : BitVec 6) (s : State) : Out :=
  extA6 .load rx a s

/-- EXT.OR, EXT_REGISTER (R427, R412). -/
def execExtOrReg (ra : GReg) (rb : GReg) (s : State) : Out :=
  extReg .or ra rb s

/-- EXT.OR, EXT_IMM16 (R427, R412). -/
def execExtOrIm16 (ra : GReg) (rb : GReg) (im : Word) (s : State) : Out :=
  extIm16 .or ra rb im s

/-- EXT.OR, EXT_A16_W0, EXT_A16_W1 (R427, R412, R219). -/
def execExtOrA16 (w : Bool) (ra : GReg) (rb : GReg) (a : Word) (s : State) : Out :=
  extA16 .or w ra rb a s

/-- EXT.OR, EXT_DS_INDIRECT (R427, R413). -/
def execExtOrInd (rx : XReg) (d : Bool) (m : PtrMode) (ry : XReg) (s : State) : Out :=
  extInd .or rx d m ry s

/-- EXT.OR, EXT_IM6 (R427, R412). -/
def execExtOrIm6 (rx : XReg) (im : BitVec 6) (s : State) : Out :=
  extIm6 .or rx im s

/-- EXT.OR, EXT_BASE_DISP6 (R427, R412). -/
def execExtOrBpIm6 (rx : XReg) (im : BitVec 6) (s : State) : Out :=
  extBpIm6 .or rx im s

/-- EXT.OR, EXT_A6 (R427, R412). -/
def execExtOrA6 (rx : XReg) (a : BitVec 6) (s : State) : Out :=
  extA6 .or rx a s

/-- EXT.AND, EXT_REGISTER (R426, R412). -/
def execExtAndReg (ra : GReg) (rb : GReg) (s : State) : Out :=
  extReg .and ra rb s

/-- EXT.AND, EXT_IMM16 (R426, R412). -/
def execExtAndIm16 (ra : GReg) (rb : GReg) (im : Word) (s : State) : Out :=
  extIm16 .and ra rb im s

/-- EXT.AND, EXT_A16_W0, EXT_A16_W1 (R426, R412, R219). -/
def execExtAndA16 (w : Bool) (ra : GReg) (rb : GReg) (a : Word) (s : State) : Out :=
  extA16 .and w ra rb a s

/-- EXT.AND, EXT_DS_INDIRECT (R426, R413). -/
def execExtAndInd (rx : XReg) (d : Bool) (m : PtrMode) (ry : XReg) (s : State) : Out :=
  extInd .and rx d m ry s

/-- EXT.AND, EXT_IM6 (R426, R412). -/
def execExtAndIm6 (rx : XReg) (im : BitVec 6) (s : State) : Out :=
  extIm6 .and rx im s

/-- EXT.AND, EXT_BASE_DISP6 (R426, R412). -/
def execExtAndBpIm6 (rx : XReg) (im : BitVec 6) (s : State) : Out :=
  extBpIm6 .and rx im s

/-- EXT.AND, EXT_A6 (R426, R412). -/
def execExtAndA6 (rx : XReg) (a : BitVec 6) (s : State) : Out :=
  extA6 .and rx a s

/-- EXT.TEST, EXT_REGISTER (R429, R412). -/
def execExtTestReg (ra : GReg) (rb : GReg) (s : State) : Out :=
  extReg .test ra rb s

/-- EXT.TEST, EXT_IMM16 (R429, R412). -/
def execExtTestIm16 (ra : GReg) (rb : GReg) (im : Word) (s : State) : Out :=
  extIm16 .test ra rb im s

/-- EXT.TEST, EXT_A16_W0, EXT_A16_W1 (R429, R412, R219). -/
def execExtTestA16 (w : Bool) (ra : GReg) (rb : GReg) (a : Word) (s : State) : Out :=
  extA16 .test w ra rb a s

/-- EXT.TEST, EXT_DS_INDIRECT (R429, R413). -/
def execExtTestInd (rx : XReg) (d : Bool) (m : PtrMode) (ry : XReg) (s : State) : Out :=
  extInd .test rx d m ry s

/-- EXT.TEST, EXT_IM6 (R429, R412). -/
def execExtTestIm6 (rx : XReg) (im : BitVec 6) (s : State) : Out :=
  extIm6 .test rx im s

/-- EXT.TEST, EXT_BASE_DISP6 (R429, R412). -/
def execExtTestBpIm6 (rx : XReg) (im : BitVec 6) (s : State) : Out :=
  extBpIm6 .test rx im s

/-- EXT.TEST, EXT_A6 (R429, R412). -/
def execExtTestA6 (rx : XReg) (a : BitVec 6) (s : State) : Out :=
  extA6 .test rx a s

end Sys2Proof.Machine
end

