-- ==== Sys2Proof/Machine/Logic.lean ====
section
/-! DEFINITION. The meanings of XOR, OR, AND, TEST on the base forms (spec 41_alu.md R209 to R212). Each takes the state
after `{SR.CS, PC}` has moved to `nextpc` (R28). -/

namespace Sys2Proof.Machine

open Sys2Proof

/-- XOR, BP_IM6 (R211, R83). -/
def execXorBpIm6 (rd : Reg) (im : BitVec 6) (s : State) : Out :=
  aluBpIm6 .xor rd im s

/-- XOR, IM6 (R211, R81). -/
def execXorIm6 (rd : Reg) (im : BitVec 6) (s : State) : Out :=
  aluIm6 .xor rd im s

/-- XOR, DS_INDIRECT (R211, R86, R87). -/
def execXorInd (rd : Reg) (d : Bool) (m : PtrMode) (rs : Reg) (s : State) : Out :=
  aluInd .xor rd d m rs s

/-- XOR, REGISTER (R211, R88). -/
def execXorReg (rd : Reg) (rs : Reg) (s : State) : Out :=
  aluReg .xor rd rs s

/-- XOR, IM16 (R211, R82). -/
def execXorIm16 (rd : Reg) (rs : Reg) (im : Word) (s : State) : Out :=
  aluIm16 .xor rd rs im s

/-- XOR, A16_W0, A16_W1 (R211, R85, R219). -/
def execXorA16 (w : Bool) (rd : Reg) (rs : Reg) (a : Word) (s : State) : Out :=
  aluA16 .xor w rd rs a s

/-- XOR, REGISTER_ASR, _LSL, _LSR, _ROL, _ROR (R211, R213 to R218). -/
def execXorShift (k : Shift4) (rd : Reg) (nn : BitVec 2) (rs : Reg) (s : State) : Out :=
  aluShift .xor k rd nn rs s

/-- XOR, A6 (R211, R84). -/
def execXorA6 (rd : Reg) (a : BitVec 6) (s : State) : Out :=
  aluA6 .xor rd a s

/-- OR, BP_IM6 (R210, R83). -/
def execOrBpIm6 (rd : Reg) (im : BitVec 6) (s : State) : Out :=
  aluBpIm6 .or rd im s

/-- OR, IM6 (R210, R81). -/
def execOrIm6 (rd : Reg) (im : BitVec 6) (s : State) : Out :=
  aluIm6 .or rd im s

/-- OR, DS_INDIRECT (R210, R86, R87). -/
def execOrInd (rd : Reg) (d : Bool) (m : PtrMode) (rs : Reg) (s : State) : Out :=
  aluInd .or rd d m rs s

/-- OR, REGISTER (R210, R88). -/
def execOrReg (rd : Reg) (rs : Reg) (s : State) : Out :=
  aluReg .or rd rs s

/-- OR, IM16 (R210, R82). -/
def execOrIm16 (rd : Reg) (rs : Reg) (im : Word) (s : State) : Out :=
  aluIm16 .or rd rs im s

/-- OR, A16_W0, A16_W1 (R210, R85, R219). -/
def execOrA16 (w : Bool) (rd : Reg) (rs : Reg) (a : Word) (s : State) : Out :=
  aluA16 .or w rd rs a s

/-- OR, REGISTER_ASR, _LSL, _LSR, _ROL, _ROR (R210, R213 to R218). -/
def execOrShift (k : Shift4) (rd : Reg) (nn : BitVec 2) (rs : Reg) (s : State) : Out :=
  aluShift .or k rd nn rs s

/-- OR, A6 (R210, R84). -/
def execOrA6 (rd : Reg) (a : BitVec 6) (s : State) : Out :=
  aluA6 .or rd a s

/-- AND, BP_IM6 (R209, R83). -/
def execAndBpIm6 (rd : Reg) (im : BitVec 6) (s : State) : Out :=
  aluBpIm6 .and rd im s

/-- AND, IM6 (R209, R81). -/
def execAndIm6 (rd : Reg) (im : BitVec 6) (s : State) : Out :=
  aluIm6 .and rd im s

/-- AND, DS_INDIRECT (R209, R86, R87). -/
def execAndInd (rd : Reg) (d : Bool) (m : PtrMode) (rs : Reg) (s : State) : Out :=
  aluInd .and rd d m rs s

/-- AND, REGISTER (R209, R88). -/
def execAndReg (rd : Reg) (rs : Reg) (s : State) : Out :=
  aluReg .and rd rs s

/-- AND, IM16 (R209, R82). -/
def execAndIm16 (rd : Reg) (rs : Reg) (im : Word) (s : State) : Out :=
  aluIm16 .and rd rs im s

/-- AND, A16_W0, A16_W1 (R209, R85, R219). -/
def execAndA16 (w : Bool) (rd : Reg) (rs : Reg) (a : Word) (s : State) : Out :=
  aluA16 .and w rd rs a s

/-- AND, REGISTER_ASR, _LSL, _LSR, _ROL, _ROR (R209, R213 to R218). -/
def execAndShift (k : Shift4) (rd : Reg) (nn : BitVec 2) (rs : Reg) (s : State) : Out :=
  aluShift .and k rd nn rs s

/-- AND, A6 (R209, R84). -/
def execAndA6 (rd : Reg) (a : BitVec 6) (s : State) : Out :=
  aluA6 .and rd a s

/-- TEST, BP_IM6 (R212, R83). -/
def execTestBpIm6 (rd : Reg) (im : BitVec 6) (s : State) : Out :=
  aluBpIm6 .test rd im s

/-- TEST, IM6 (R212, R81). -/
def execTestIm6 (rd : Reg) (im : BitVec 6) (s : State) : Out :=
  aluIm6 .test rd im s

/-- TEST, DS_INDIRECT (R212, R86, R87). -/
def execTestInd (rd : Reg) (d : Bool) (m : PtrMode) (rs : Reg) (s : State) : Out :=
  aluInd .test rd d m rs s

/-- TEST, REGISTER (R212, R88). -/
def execTestReg (rd : Reg) (rs : Reg) (s : State) : Out :=
  aluReg .test rd rs s

/-- TEST, IM16 (R212, R82). -/
def execTestIm16 (rd : Reg) (rs : Reg) (im : Word) (s : State) : Out :=
  aluIm16 .test rd rs im s

/-- TEST, A16_W0, A16_W1 (R212, R85, R219). -/
def execTestA16 (w : Bool) (rd : Reg) (rs : Reg) (a : Word) (s : State) : Out :=
  aluA16 .test w rd rs a s

/-- TEST, REGISTER_ASR, _LSL, _LSR, _ROL, _ROR (R212, R213 to R218). -/
def execTestShift (k : Shift4) (rd : Reg) (nn : BitVec 2) (rs : Reg) (s : State) : Out :=
  aluShift .test k rd nn rs s

/-- TEST, A6 (R212, R84). -/
def execTestA6 (rd : Reg) (a : BitVec 6) (s : State) : Out :=
  aluA6 .test rd a s

end Sys2Proof.Machine
end

