-- ==== Sys2Proof/Machine/Mode.lean ====
section
/-! DEFINITION. The meanings of FIR_MOV, FIQ, IRQ, INT, SECBANK, FRACTION, IRQNEST, NOP (spec 47_misc_mode.md). Each takes the state
after `{SR.CS, PC}` has moved to `nextpc` (R28). -/

namespace Sys2Proof.Machine

open Sys2Proof

/-- INT, MODE (R364). -/
def execInt (f : Bool) (i : Bool) (s : State) : Out :=
  .next { s with flags := { s.flags with f := f, i := i } }

/-- FIR_MOV, MODE (R361). -/
def execFirMov (off : Bool) (s : State) : Out :=
  .next { s with flags := { s.flags with fir := off } }

/-- FRACTION, MODE (R366). -/
def execFraction (on : Bool) (s : State) : Out :=
  .next { s with flags := { s.flags with fra := on } }

/-- IRQ, MODE (R363). -/
def execIrq (on : Bool) (s : State) : Out :=
  .next { s with flags := { s.flags with i := on } }

/-- SECBANK, MODE (R365). -/
def execSecbank (on : Bool) (s : State) : Out :=
  .next { s with flags := { s.flags with bnk := on } }

/-- FIQ, MODE (R362). -/
def execFiq (on : Bool) (s : State) : Out :=
  .next { s with flags := { s.flags with f := on } }

/-- IRQNEST, MODE (R367). -/
def execIrqnest (on : Bool) (s : State) : Out :=
  .next { s with flags := { s.flags with ine := on } }

/-- NOP, MODE (R368). -/
def execNop (s : State) : Out :=
  .next s

end Sys2Proof.Machine
end

