-- ==== Sys2Proof/Machine/SegFlag.lean ====
section
/-! DEFINITION. The meanings of DS and FR access (spec 45_segment_flag_access.md). Each takes the state
after `{SR.CS, PC}` has moved to `nextpc` (R28). -/

namespace Sys2Proof.Machine

open Sys2Proof

/-- DS_IM6, SEG (R310). -/
def execDsIm6 (im : BitVec 6) (s : State) : Out :=
  .next (s.setDs im)

/-- RS_EQ_DS, SEG_ACCESS (R311). -/
def execRsEqDs (rs : Reg) (s : State) : Out :=
  if rs = .pc then .refused .specialToPc else .next (s.setReg rs (s.status.ds.setWidth 16))

/-- DS_EQ_RS, SEG_ACCESS (R312). -/
def execDsEqRs (rs : Reg) (s : State) : Out :=
  .next (s.setDs ((s.reg rs).extractLsb' 0 6))

/-- RS_EQ_FR, FR_ACCESS (R313). -/
def execRsEqFr (rs : Reg) (s : State) : Out :=
  if rs = .pc then .refused .specialToPc else .next (s.setReg rs s.frWord)

/-- FR_EQ_RS, FR_ACCESS (R314). -/
def execFrEqRs (rs : Reg) (s : State) : Out :=
  .next (s.setFr (s.reg rs))

end Sys2Proof.Machine
end

