-- ==== Sys2Proof/Machine/Shift16.lean ====
section
/-! DEFINITION. The meanings of the 16-bit shifts (spec 42_shift16.md). Each takes the state
after `{SR.CS, PC}` has moved to `nextpc` (R28). -/

namespace Sys2Proof.Machine

open Sys2Proof

/-! ### The shifts (R240 to R250) -/

/-- cnt of R241 for the six shifts: R[Rs][4:0]. -/
def shiftCnt5 (v : Word) : Nat := (v.extractLsb' 0 5).toNat

/-- cnt of R241 for the two rotates: R[Rs][3:0]. -/
def shiftCnt4 (v : Word) : Nat := (v.extractLsb' 0 4).toNat

/-- ROL: one step per count, through the carry (R248). -/
def rolSteps : Nat → Word → Bool → Word × Bool
  | 0, v, c => (v, c)
  | k + 1, v, c => rolSteps k ((v <<< 1) ||| (BitVec.ofBool c).setWidth 16) (v.getLsbD 15)

/-- ROR: one step per count, through the carry (R249). -/
def rorSteps : Nat → Word → Bool → Word × Bool
  | 0, v, c => (v, c)
  | k + 1, v, c => rorSteps k ((v >>> 1) ||| ((BitVec.ofBool c).setWidth 16 <<< 15)) (v.getLsbD 0)

/-- The 32-bit window of ASROR: {R4, 0} shifted right arithmetically (R246). -/
def asrWindow (v : Word) (n : Nat) : BitVec 32 := BitVec.ofInt 32 (v.toInt * 2 ^ 16 / 2 ^ n)

/-- The 32-bit window of LSROR: {R4, 0} shifted right (R246). -/
def lsrWindow (v : Word) (n : Nat) : BitVec 32 := BitVec.ofNat 32 (v.toNat * 2 ^ 16 / 2 ^ n)

/-- The 32-bit window of LSLOR: {0, R3} shifted left (R246). -/
def lslWindow (v : Word) (n : Nat) : BitVec 32 := BitVec.ofNat 32 (v.toNat * 2 ^ n)

/-- The write of the right OR forms: the window's high half replaces R4, its low half is ORed into R3 (R246). -/
def orDown (w : BitVec 32) (s : State) : State :=
  (s.setReg .r4 (w.extractLsb' 16 16)).setReg .r3 (s.reg .r3 ||| w.extractLsb' 0 16)

/-- The write of the left OR form: the window's low half replaces R3, its high half is ORed into R4 (R246). -/
def orUp (w : BitVec 32) (s : State) : State :=
  (s.setReg .r3 (w.extractLsb' 0 16)).setReg .r4 (s.reg .r4 ||| w.extractLsb' 16 16)

/-- A rotate's end: C, then the register, so that with Rd = SR the result's bits remain (R242, R250, D10). -/
def rotateWrite (rd : Reg) (r : Word × Bool) (s : State) : State :=
  { s with status := { s.status with c := r.2 } }.setReg rd r.1

/-- The 16-bit shifts (R243 to R249): the six shifts change no flag (R242, D25). -/
def shift16 (k : Shift16) (rd rs : Reg) (s : State) : Out :=
  let v := s.reg rd
  let n := shiftCnt5 (s.reg rs)
  match k with
  | .asr => .next (s.setReg rd (BitVec.ofInt 16 (v.toInt / 2 ^ n)))
  | .asrOr => if rd = .r4 then .next (orDown (asrWindow v n) s) else .refused .orShiftDest
  | .lsl => .next (s.setReg rd (BitVec.ofNat 16 (v.toNat * 2 ^ n)))
  | .lslOr => if rd = .r3 then .next (orUp (lslWindow v n) s) else .refused .orShiftDest
  | .lsr => .next (s.setReg rd (BitVec.ofNat 16 (v.toNat / 2 ^ n)))
  | .lsrOr => if rd = .r4 then .next (orDown (lsrWindow v n) s) else .refused .orShiftDest
  | .rol => .next (rotateWrite rd (rolSteps (shiftCnt4 (s.reg rs)) v s.status.c) s)
  | .ror => .next (rotateWrite rd (rorSteps (shiftCnt4 (s.reg rs)) v s.status.c) s)

/-- ASR16, SHIFT16 (R243, R241). -/
def execAsr16 (rd : Reg) (rs : Reg) (s : State) : Out :=
  shift16 .asr rd rs s

/-- ASROR16, SHIFT16 (R246, R241). -/
def execAsrOr16 (rd : Reg) (rs : Reg) (s : State) : Out :=
  shift16 .asrOr rd rs s

/-- LSL16, SHIFT16 (R244, R241). -/
def execLsl16 (rd : Reg) (rs : Reg) (s : State) : Out :=
  shift16 .lsl rd rs s

/-- LSLOR16, SHIFT16 (R246, R241). -/
def execLslOr16 (rd : Reg) (rs : Reg) (s : State) : Out :=
  shift16 .lslOr rd rs s

/-- LSR16, SHIFT16 (R245, R241). -/
def execLsr16 (rd : Reg) (rs : Reg) (s : State) : Out :=
  shift16 .lsr rd rs s

/-- LSROR16, SHIFT16 (R246, R241). -/
def execLsrOr16 (rd : Reg) (rs : Reg) (s : State) : Out :=
  shift16 .lsrOr rd rs s

/-- ROL16, SHIFT16 (R248, R241). -/
def execRol16 (rd : Reg) (rs : Reg) (s : State) : Out :=
  shift16 .rol rd rs s

/-- ROR16, SHIFT16 (R249, R241). -/
def execRor16 (rd : Reg) (rs : Reg) (s : State) : Out :=
  shift16 .ror rd rs s

end Sys2Proof.Machine
end

