-- ==== Sys2Proof/Machine/Dispatch.lean ====
section
/-! DEFINITION. The dispatch: one arm per instruction, each one call of its meaning. -/

namespace Sys2Proof.Machine

open Sys2Proof

/-- What an instruction does, on the state after `{SR.CS, PC}` has moved to `nextpc` (R28). -/
def exec (i : Instr) (s : State) : Host.Outcome State Fault Refusal :=
  match i with
  | .jcc back im => Sys2Proof.Machine.execJcc back im s
  | .jcs back im => Sys2Proof.Machine.execJcs back im s
  | .jsc back im => Sys2Proof.Machine.execJsc back im s
  | .jss back im => Sys2Proof.Machine.execJss back im s
  | .jne back im => Sys2Proof.Machine.execJne back im s
  | .jz back im => Sys2Proof.Machine.execJz back im s
  | .jpl back im => Sys2Proof.Machine.execJpl back im s
  | .jmi back im => Sys2Proof.Machine.execJmi back im s
  | .jbe back im => Sys2Proof.Machine.execJbe back im s
  | .jnbe back im => Sys2Proof.Machine.execJnbe back im s
  | .jle back im => Sys2Proof.Machine.execJle back im s
  | .jnle back im => Sys2Proof.Machine.execJnle back im s
  | .jvc back im => Sys2Proof.Machine.execJvc back im s
  | .jvs back im => Sys2Proof.Machine.execJvs back im s
  | .jmp back im => Sys2Proof.Machine.execJmp back im s
  | .dsIm6 im => Sys2Proof.Machine.execDsIm6 im s
  | .goto hi lo => Sys2Proof.Machine.execGoto hi lo s
  | .extPrefix e => Sys2Proof.Machine.execExtPrefix e s
  | .tstbA16 d off a => Sys2Proof.Machine.execTstbA16 d off a s
  | .setbA16 d off a => Sys2Proof.Machine.execSetbA16 d off a s
  | .clrbA16 d off a => Sys2Proof.Machine.execClrbA16 d off a s
  | .invbA16 d off a => Sys2Proof.Machine.execInvbA16 d off a s
  | .addBpIm6 rd im => Sys2Proof.Machine.execAddBpIm6 rd im s
  | .addIm6 rd im => Sys2Proof.Machine.execAddIm6 rd im s
  | .addInd rd d m rs => Sys2Proof.Machine.execAddInd rd d m rs s
  | .addReg rd rs => Sys2Proof.Machine.execAddReg rd rs s
  | .addIm16 rd rs im => Sys2Proof.Machine.execAddIm16 rd rs im s
  | .addA16 w rd rs a => Sys2Proof.Machine.execAddA16 w rd rs a s
  | .addShift k rd nn rs => Sys2Proof.Machine.execAddShift k rd nn rs s
  | .addA6 rd a => Sys2Proof.Machine.execAddA6 rd a s
  | .adcBpIm6 rd im => Sys2Proof.Machine.execAdcBpIm6 rd im s
  | .adcIm6 rd im => Sys2Proof.Machine.execAdcIm6 rd im s
  | .adcInd rd d m rs => Sys2Proof.Machine.execAdcInd rd d m rs s
  | .adcReg rd rs => Sys2Proof.Machine.execAdcReg rd rs s
  | .adcIm16 rd rs im => Sys2Proof.Machine.execAdcIm16 rd rs im s
  | .adcA16 w rd rs a => Sys2Proof.Machine.execAdcA16 w rd rs a s
  | .adcShift k rd nn rs => Sys2Proof.Machine.execAdcShift k rd nn rs s
  | .adcA6 rd a => Sys2Proof.Machine.execAdcA6 rd a s
  | .subBpIm6 rd im => Sys2Proof.Machine.execSubBpIm6 rd im s
  | .subIm6 rd im => Sys2Proof.Machine.execSubIm6 rd im s
  | .subInd rd d m rs => Sys2Proof.Machine.execSubInd rd d m rs s
  | .subReg rd rs => Sys2Proof.Machine.execSubReg rd rs s
  | .subIm16 rd rs im => Sys2Proof.Machine.execSubIm16 rd rs im s
  | .subA16 w rd rs a => Sys2Proof.Machine.execSubA16 w rd rs a s
  | .subShift k rd nn rs => Sys2Proof.Machine.execSubShift k rd nn rs s
  | .subA6 rd a => Sys2Proof.Machine.execSubA6 rd a s
  | .sbcBpIm6 rd im => Sys2Proof.Machine.execSbcBpIm6 rd im s
  | .sbcIm6 rd im => Sys2Proof.Machine.execSbcIm6 rd im s
  | .sbcInd rd d m rs => Sys2Proof.Machine.execSbcInd rd d m rs s
  | .sbcReg rd rs => Sys2Proof.Machine.execSbcReg rd rs s
  | .sbcIm16 rd rs im => Sys2Proof.Machine.execSbcIm16 rd rs im s
  | .sbcA16 w rd rs a => Sys2Proof.Machine.execSbcA16 w rd rs a s
  | .sbcShift k rd nn rs => Sys2Proof.Machine.execSbcShift k rd nn rs s
  | .sbcA6 rd a => Sys2Proof.Machine.execSbcA6 rd a s
  | .cmpBpIm6 rd im => Sys2Proof.Machine.execCmpBpIm6 rd im s
  | .cmpIm6 rd im => Sys2Proof.Machine.execCmpIm6 rd im s
  | .cmpInd rd d m rs => Sys2Proof.Machine.execCmpInd rd d m rs s
  | .cmpReg rd rs => Sys2Proof.Machine.execCmpReg rd rs s
  | .cmpIm16 rd rs im => Sys2Proof.Machine.execCmpIm16 rd rs im s
  | .cmpA16 w rd rs a => Sys2Proof.Machine.execCmpA16 w rd rs a s
  | .cmpShift k rd nn rs => Sys2Proof.Machine.execCmpShift k rd nn rs s
  | .cmpA6 rd a => Sys2Proof.Machine.execCmpA6 rd a s
  | .negBpIm6 rd im => Sys2Proof.Machine.execNegBpIm6 rd im s
  | .negIm6 rd im => Sys2Proof.Machine.execNegIm6 rd im s
  | .negInd rd d m rs => Sys2Proof.Machine.execNegInd rd d m rs s
  | .negReg rd rs => Sys2Proof.Machine.execNegReg rd rs s
  | .negIm16 rd rs im => Sys2Proof.Machine.execNegIm16 rd rs im s
  | .negA16 w rd rs a => Sys2Proof.Machine.execNegA16 w rd rs a s
  | .negShift k rd nn rs => Sys2Proof.Machine.execNegShift k rd nn rs s
  | .negA6 rd a => Sys2Proof.Machine.execNegA6 rd a s
  | .xorBpIm6 rd im => Sys2Proof.Machine.execXorBpIm6 rd im s
  | .xorIm6 rd im => Sys2Proof.Machine.execXorIm6 rd im s
  | .xorInd rd d m rs => Sys2Proof.Machine.execXorInd rd d m rs s
  | .xorReg rd rs => Sys2Proof.Machine.execXorReg rd rs s
  | .xorIm16 rd rs im => Sys2Proof.Machine.execXorIm16 rd rs im s
  | .xorA16 w rd rs a => Sys2Proof.Machine.execXorA16 w rd rs a s
  | .xorShift k rd nn rs => Sys2Proof.Machine.execXorShift k rd nn rs s
  | .xorA6 rd a => Sys2Proof.Machine.execXorA6 rd a s
  | .loadBpIm6 rd im => Sys2Proof.Machine.execLoadBpIm6 rd im s
  | .loadIm6 rd im => Sys2Proof.Machine.execLoadIm6 rd im s
  | .loadInd rd d m rs => Sys2Proof.Machine.execLoadInd rd d m rs s
  | .loadReg rd rs => Sys2Proof.Machine.execLoadReg rd rs s
  | .loadIm16 rd rs im => Sys2Proof.Machine.execLoadIm16 rd rs im s
  | .loadA16 rd rs a => Sys2Proof.Machine.execLoadA16 rd rs a s
  | .loadShift k rd nn rs => Sys2Proof.Machine.execLoadShift k rd nn rs s
  | .loadA6 rd a => Sys2Proof.Machine.execLoadA6 rd a s
  | .orBpIm6 rd im => Sys2Proof.Machine.execOrBpIm6 rd im s
  | .orIm6 rd im => Sys2Proof.Machine.execOrIm6 rd im s
  | .orInd rd d m rs => Sys2Proof.Machine.execOrInd rd d m rs s
  | .orReg rd rs => Sys2Proof.Machine.execOrReg rd rs s
  | .orIm16 rd rs im => Sys2Proof.Machine.execOrIm16 rd rs im s
  | .orA16 w rd rs a => Sys2Proof.Machine.execOrA16 w rd rs a s
  | .orShift k rd nn rs => Sys2Proof.Machine.execOrShift k rd nn rs s
  | .orA6 rd a => Sys2Proof.Machine.execOrA6 rd a s
  | .andBpIm6 rd im => Sys2Proof.Machine.execAndBpIm6 rd im s
  | .andIm6 rd im => Sys2Proof.Machine.execAndIm6 rd im s
  | .andInd rd d m rs => Sys2Proof.Machine.execAndInd rd d m rs s
  | .andReg rd rs => Sys2Proof.Machine.execAndReg rd rs s
  | .andIm16 rd rs im => Sys2Proof.Machine.execAndIm16 rd rs im s
  | .andA16 w rd rs a => Sys2Proof.Machine.execAndA16 w rd rs a s
  | .andShift k rd nn rs => Sys2Proof.Machine.execAndShift k rd nn rs s
  | .andA6 rd a => Sys2Proof.Machine.execAndA6 rd a s
  | .testBpIm6 rd im => Sys2Proof.Machine.execTestBpIm6 rd im s
  | .testIm6 rd im => Sys2Proof.Machine.execTestIm6 rd im s
  | .testInd rd d m rs => Sys2Proof.Machine.execTestInd rd d m rs s
  | .testReg rd rs => Sys2Proof.Machine.execTestReg rd rs s
  | .testIm16 rd rs im => Sys2Proof.Machine.execTestIm16 rd rs im s
  | .testA16 w rd rs a => Sys2Proof.Machine.execTestA16 w rd rs a s
  | .testShift k rd nn rs => Sys2Proof.Machine.execTestShift k rd nn rs s
  | .testA6 rd a => Sys2Proof.Machine.execTestA6 rd a s
  | .storeBpIm6 rd im => Sys2Proof.Machine.execStoreBpIm6 rd im s
  | .storeInd rd d m rs => Sys2Proof.Machine.execStoreInd rd d m rs s
  | .storeA16 rd rs a => Sys2Proof.Machine.execStoreA16 rd rs a s
  | .storeA6 rd a => Sys2Proof.Machine.execStoreA6 rd a s
  | .push rd n rs => Sys2Proof.Machine.execPush rd n rs s
  | .pop rd n rs => Sys2Proof.Machine.execPop rd n rs s
  | .tstbRegReg rd rs => Sys2Proof.Machine.execTstbRegReg rd rs s
  | .tstbRegOff rd off => Sys2Proof.Machine.execTstbRegOff rd off s
  | .tstbMemReg rd d rs => Sys2Proof.Machine.execTstbMemReg rd d rs s
  | .tstbMemOff rd d off => Sys2Proof.Machine.execTstbMemOff rd d off s
  | .setbRegReg rd rs => Sys2Proof.Machine.execSetbRegReg rd rs s
  | .setbRegOff rd off => Sys2Proof.Machine.execSetbRegOff rd off s
  | .setbMemReg rd d rs => Sys2Proof.Machine.execSetbMemReg rd d rs s
  | .setbMemOff rd d off => Sys2Proof.Machine.execSetbMemOff rd d off s
  | .clrbRegReg rd rs => Sys2Proof.Machine.execClrbRegReg rd rs s
  | .clrbRegOff rd off => Sys2Proof.Machine.execClrbRegOff rd off s
  | .clrbMemReg rd d rs => Sys2Proof.Machine.execClrbMemReg rd d rs s
  | .clrbMemOff rd d off => Sys2Proof.Machine.execClrbMemOff rd d off s
  | .invbRegReg rd rs => Sys2Proof.Machine.execInvbRegReg rd rs s
  | .invbRegOff rd off => Sys2Proof.Machine.execInvbRegOff rd off s
  | .invbMemReg rd d rs => Sys2Proof.Machine.execInvbMemReg rd d rs s
  | .invbMemOff rd d off => Sys2Proof.Machine.execInvbMemOff rd d off s
  | .asr16 rd rs => Sys2Proof.Machine.execAsr16 rd rs s
  | .asrOr16 rd rs => Sys2Proof.Machine.execAsrOr16 rd rs s
  | .lsl16 rd rs => Sys2Proof.Machine.execLsl16 rd rs s
  | .lslOr16 rd rs => Sys2Proof.Machine.execLslOr16 rd rs s
  | .lsr16 rd rs => Sys2Proof.Machine.execLsr16 rd rs s
  | .lsrOr16 rd rs => Sys2Proof.Machine.execLsrOr16 rd rs s
  | .rol16 rd rs => Sys2Proof.Machine.execRol16 rd rs s
  | .ror16 rd rs => Sys2Proof.Machine.execRor16 rd rs s
  | .mulUu rd rs => Sys2Proof.Machine.execMulUu rd rs s
  | .mulUs rd rs => Sys2Proof.Machine.execMulUs rd rs s
  | .mulSs rd rs => Sys2Proof.Machine.execMulSs rd rs s
  | .mulsUu rd n rs => Sys2Proof.Machine.execMulsUu rd n rs s
  | .mulsUs rd n rs => Sys2Proof.Machine.execMulsUs rd n rs s
  | .mulsSs rd n rs => Sys2Proof.Machine.execMulsSs rd n rs s
  | .int fq iq => Sys2Proof.Machine.execInt fq iq s
  | .firMov off => Sys2Proof.Machine.execFirMov off s
  | .fraction on => Sys2Proof.Machine.execFraction on s
  | .irq on => Sys2Proof.Machine.execIrq on s
  | .secbank on => Sys2Proof.Machine.execSecbank on s
  | .fiq on => Sys2Proof.Machine.execFiq on s
  | .irqnest on => Sys2Proof.Machine.execIrqnest on s
  | .rsEqDs rs => Sys2Proof.Machine.execRsEqDs rs s
  | .dsEqRs rs => Sys2Proof.Machine.execDsEqRs rs s
  | .rsEqFr rs => Sys2Proof.Machine.execRsEqFr rs s
  | .frEqRs rs => Sys2Proof.Machine.execFrEqRs rs s
  | .call hi lo => Sys2Proof.Machine.execCall hi lo s
  | .extAddReg ra rb => Sys2Proof.Machine.execExtAddReg ra rb s
  | .extAddIm16 ra rb im => Sys2Proof.Machine.execExtAddIm16 ra rb im s
  | .extAddA16 w ra rb a => Sys2Proof.Machine.execExtAddA16 w ra rb a s
  | .extAddInd rx d m ry => Sys2Proof.Machine.execExtAddInd rx d m ry s
  | .extAddIm6 rx im => Sys2Proof.Machine.execExtAddIm6 rx im s
  | .extAddBpIm6 rx im => Sys2Proof.Machine.execExtAddBpIm6 rx im s
  | .extAddA6 rx a => Sys2Proof.Machine.execExtAddA6 rx a s
  | .extAdcReg ra rb => Sys2Proof.Machine.execExtAdcReg ra rb s
  | .extAdcIm16 ra rb im => Sys2Proof.Machine.execExtAdcIm16 ra rb im s
  | .extAdcA16 w ra rb a => Sys2Proof.Machine.execExtAdcA16 w ra rb a s
  | .extAdcInd rx d m ry => Sys2Proof.Machine.execExtAdcInd rx d m ry s
  | .extAdcIm6 rx im => Sys2Proof.Machine.execExtAdcIm6 rx im s
  | .extAdcBpIm6 rx im => Sys2Proof.Machine.execExtAdcBpIm6 rx im s
  | .extAdcA6 rx a => Sys2Proof.Machine.execExtAdcA6 rx a s
  | .extSubReg ra rb => Sys2Proof.Machine.execExtSubReg ra rb s
  | .extSubIm16 ra rb im => Sys2Proof.Machine.execExtSubIm16 ra rb im s
  | .extSubA16 w ra rb a => Sys2Proof.Machine.execExtSubA16 w ra rb a s
  | .extSubInd rx d m ry => Sys2Proof.Machine.execExtSubInd rx d m ry s
  | .extSubIm6 rx im => Sys2Proof.Machine.execExtSubIm6 rx im s
  | .extSubBpIm6 rx im => Sys2Proof.Machine.execExtSubBpIm6 rx im s
  | .extSubA6 rx a => Sys2Proof.Machine.execExtSubA6 rx a s
  | .extSbcReg ra rb => Sys2Proof.Machine.execExtSbcReg ra rb s
  | .extSbcIm16 ra rb im => Sys2Proof.Machine.execExtSbcIm16 ra rb im s
  | .extSbcA16 w ra rb a => Sys2Proof.Machine.execExtSbcA16 w ra rb a s
  | .extSbcInd rx d m ry => Sys2Proof.Machine.execExtSbcInd rx d m ry s
  | .extSbcIm6 rx im => Sys2Proof.Machine.execExtSbcIm6 rx im s
  | .extSbcBpIm6 rx im => Sys2Proof.Machine.execExtSbcBpIm6 rx im s
  | .extSbcA6 rx a => Sys2Proof.Machine.execExtSbcA6 rx a s
  | .extCmpReg ra rb => Sys2Proof.Machine.execExtCmpReg ra rb s
  | .extCmpIm16 ra rb im => Sys2Proof.Machine.execExtCmpIm16 ra rb im s
  | .extCmpA16 w ra rb a => Sys2Proof.Machine.execExtCmpA16 w ra rb a s
  | .extCmpInd rx d m ry => Sys2Proof.Machine.execExtCmpInd rx d m ry s
  | .extCmpIm6 rx im => Sys2Proof.Machine.execExtCmpIm6 rx im s
  | .extCmpBpIm6 rx im => Sys2Proof.Machine.execExtCmpBpIm6 rx im s
  | .extCmpA6 rx a => Sys2Proof.Machine.execExtCmpA6 rx a s
  | .extNegReg ra rb => Sys2Proof.Machine.execExtNegReg ra rb s
  | .extNegIm16 ra rb im => Sys2Proof.Machine.execExtNegIm16 ra rb im s
  | .extNegA16 w ra rb a => Sys2Proof.Machine.execExtNegA16 w ra rb a s
  | .extNegInd rx d m ry => Sys2Proof.Machine.execExtNegInd rx d m ry s
  | .extNegIm6 rx im => Sys2Proof.Machine.execExtNegIm6 rx im s
  | .extNegBpIm6 rx im => Sys2Proof.Machine.execExtNegBpIm6 rx im s
  | .extNegA6 rx a => Sys2Proof.Machine.execExtNegA6 rx a s
  | .extXorReg ra rb => Sys2Proof.Machine.execExtXorReg ra rb s
  | .extXorIm16 ra rb im => Sys2Proof.Machine.execExtXorIm16 ra rb im s
  | .extXorA16 w ra rb a => Sys2Proof.Machine.execExtXorA16 w ra rb a s
  | .extXorInd rx d m ry => Sys2Proof.Machine.execExtXorInd rx d m ry s
  | .extXorIm6 rx im => Sys2Proof.Machine.execExtXorIm6 rx im s
  | .extXorBpIm6 rx im => Sys2Proof.Machine.execExtXorBpIm6 rx im s
  | .extXorA6 rx a => Sys2Proof.Machine.execExtXorA6 rx a s
  | .extLoadReg ra rb => Sys2Proof.Machine.execExtLoadReg ra rb s
  | .extLoadIm16 ra rb im => Sys2Proof.Machine.execExtLoadIm16 ra rb im s
  | .extLoadA16 ra rb a => Sys2Proof.Machine.execExtLoadA16 ra rb a s
  | .extLoadInd rx d m ry => Sys2Proof.Machine.execExtLoadInd rx d m ry s
  | .extLoadIm6 rx im => Sys2Proof.Machine.execExtLoadIm6 rx im s
  | .extLoadBpIm6 rx im => Sys2Proof.Machine.execExtLoadBpIm6 rx im s
  | .extLoadA6 rx a => Sys2Proof.Machine.execExtLoadA6 rx a s
  | .extOrReg ra rb => Sys2Proof.Machine.execExtOrReg ra rb s
  | .extOrIm16 ra rb im => Sys2Proof.Machine.execExtOrIm16 ra rb im s
  | .extOrA16 w ra rb a => Sys2Proof.Machine.execExtOrA16 w ra rb a s
  | .extOrInd rx d m ry => Sys2Proof.Machine.execExtOrInd rx d m ry s
  | .extOrIm6 rx im => Sys2Proof.Machine.execExtOrIm6 rx im s
  | .extOrBpIm6 rx im => Sys2Proof.Machine.execExtOrBpIm6 rx im s
  | .extOrA6 rx a => Sys2Proof.Machine.execExtOrA6 rx a s
  | .extAndReg ra rb => Sys2Proof.Machine.execExtAndReg ra rb s
  | .extAndIm16 ra rb im => Sys2Proof.Machine.execExtAndIm16 ra rb im s
  | .extAndA16 w ra rb a => Sys2Proof.Machine.execExtAndA16 w ra rb a s
  | .extAndInd rx d m ry => Sys2Proof.Machine.execExtAndInd rx d m ry s
  | .extAndIm6 rx im => Sys2Proof.Machine.execExtAndIm6 rx im s
  | .extAndBpIm6 rx im => Sys2Proof.Machine.execExtAndBpIm6 rx im s
  | .extAndA6 rx a => Sys2Proof.Machine.execExtAndA6 rx a s
  | .extTestReg ra rb => Sys2Proof.Machine.execExtTestReg ra rb s
  | .extTestIm16 ra rb im => Sys2Proof.Machine.execExtTestIm16 ra rb im s
  | .extTestA16 w ra rb a => Sys2Proof.Machine.execExtTestA16 w ra rb a s
  | .extTestInd rx d m ry => Sys2Proof.Machine.execExtTestInd rx d m ry s
  | .extTestIm6 rx im => Sys2Proof.Machine.execExtTestIm6 rx im s
  | .extTestBpIm6 rx im => Sys2Proof.Machine.execExtTestBpIm6 rx im s
  | .extTestA6 rx a => Sys2Proof.Machine.execExtTestA6 rx a s
  | .extStoreA16 ra rb a => Sys2Proof.Machine.execExtStoreA16 ra rb a s
  | .extStoreInd rx d m ry => Sys2Proof.Machine.execExtStoreInd rx d m ry s
  | .extStoreBpIm6 rx im => Sys2Proof.Machine.execExtStoreBpIm6 rx im s
  | .extStoreA6 rx a => Sys2Proof.Machine.execExtStoreA6 rx a s
  | .extPush n rx rb => Sys2Proof.Machine.execExtPush n rx rb s
  | .extPop n fld rb => Sys2Proof.Machine.execExtPop n fld rb s
  | .retf => Sys2Proof.Machine.execRetf s
  | .reti => Sys2Proof.Machine.execReti s
  | .gotoMr => Sys2Proof.Machine.execGotoMr s
  | .brk => Sys2Proof.Machine.execBrk s
  | .callMr => Sys2Proof.Machine.execCallMr s
  | .divs => Sys2Proof.Machine.execDivs s
  | .divq => Sys2Proof.Machine.execDivq s
  | .exp => Sys2Proof.Machine.execExp s
  | .nop => Sys2Proof.Machine.execNop s

end Sys2Proof.Machine
end

