-- ==== Sys2Proof/Machine/Interrupt.lean ====
section
/-! DEFINITION. What happens between instructions: the reset sequence, the pins that hold the core, the choice of a
request, the instructions after which none is looked at, and the fetch (spec 20_memory.md R105, R111, 60_exceptions.md
R450 to R459, R475, R490 to R493, 70_reset_and_hazards.md R510). -/

namespace Sys2Proof.Machine

open Sys2Proof

/-! ### Reset and the holding pins -/

/-- The reset sequence (R510, D32): every register at its value of R47, SVC empty, memory kept, PC from the vector, which
is read as every word is. The parameters, the pins, the DMA master's accesses ahead, what the devices have seen and the
count of free values drawn are no registers and stay. -/
def State.resetSequence (s : State) : State :=
  let v := s.load (vectorAddr s.cfg resetSlot)
  { State.reset with
    cfg := s.cfg
    pins := s.pins
    pc := v.1
    dma := v.2.dma
    devLog := v.2.devLog
    freeIdx := s.freeIdx
    mem := v.2.mem }

/-- SLEEP, PD or HDUMPROM stops the core, all state kept (R491, R492, R493). -/
def State.stalled (s : State) : Bool := hasHoldPins s.cfg.ver && (s.pins.sleep || s.pins.pd || s.pins.hdumprom)

/-- DMAQ: the core acknowledges and makes no access; the DMA master does (R111, R490; log 41). -/
def State.dmaGranted (s : State) : Bool := hasHoldPins s.cfg.ver && s.pins.dmaq

/-! ### Requests (R451, R452, R458) -/

/-- The lowest-numbered requesting line at or above `k` (R451, R458). -/
def lowestLine (lines : BitVec 8) : Nat → Nat → Option (BitVec 3)
  | 0, _ => none
  | fuel + 1, k => if lines.getLsbD k then some (BitVec.ofNat 3 k) else lowestLine lines fuel (k + 1)

/-- The IRQ number requested: the lowest requesting line in [1.0] and [1.1], IRQS in the others (R458). -/
def State.irqRequest (s : State) : Option (BitVec 3) :=
  match s.cfg.ver with
  | .v10 | .v11 => lowestLine s.pins.irqLines 8 0
  | .v12 | .v13 | .v20 => if s.pins.irq then some s.pins.irqs else none

/-- Whether an FIQ request is taken (R452). -/
def State.takesFiq (s : State) : Bool :=
  s.pins.fiq && s.flags.f &&
    match s.cfg.ver with
    | .v10 | .v11 => !decide (Level.fiq ∈ s.svc)
    | .v12 | .v20 => decide (s.svc.head? ≠ some .brk) && decide (s.svc.head? ≠ some .fiq)
    | .v13 => decide (s.svc.head? ≠ some .brk)

/-- Whether a request of IRQ `n` is taken, where no FIQ is (R452). -/
def State.takesIrq (s : State) (n : BitVec 3) : Bool :=
  s.flags.i &&
    match s.cfg.ver with
    | .v10 | .v11 => !decide (Level.irq ∈ s.svc) && !decide (Level.fiq ∈ s.svc)
    | .v12 | .v20 =>
      decide (n.toNat < s.flags.pri.toNat) && decide (s.svc.head? ≠ some .brk) && decide (s.svc.head? ≠ some .fiq)
        && (decide (s.svc.head? ≠ some .irq) || s.flags.ine)
    | .v13 =>
      decide (n.toNat < s.flags.pri.toNat) && decide (s.svc.head? ≠ some .brk) && decide (s.svc.head? ≠ some .fiq)

/-- The request taken at a sampling point, if any (R452). -/
def State.request (s : State) : Option Event :=
  if s.takesFiq then some .fiq
  else
    match s.irqRequest with
    | some n => if s.takesIrq n then some (.irq n) else none
    | none => none

/-- After an FIQ entry the next sampling point is after the first instruction of its routine (R476); an IRQ entry is
followed by one at once (log 19). -/
def Event.holdsNext : Event → Bool
  | .fiq => true
  | .irq _ => false
  | .brk => false
  | .ade => false

/-- An entry between two instructions (R454, R459). -/
def State.takeRequest (s : State) (e : Event) : State := { s.enter e with hold := e.holdsNext }

/-! ### Instructions after which no request is looked at (R459) -/

/-- RA16: an [A16] operand read, W = 0 (R459). -/
def isRA16 (sh : Shape) : Bool :=
  match sh with
  | .aluA16 _ w _ _ _ => !w
  | .extA16 _ w _ _ _ => !w
  | _ => false

/-- RW16: the [A16] form with W = 1, and the store `[A16] = Rd` (R459). -/
def isRW16 (sh : Shape) : Bool :=
  match sh with
  | .aluA16 _ w _ _ _ => w
  | .extA16 _ w _ _ _ => w
  | .storeA16 _ _ _ => true
  | .extStoreA16 _ _ _ => true
  | _ => false

/-- No sampling after this instruction of the table (R459; log 20). -/
def noSampleAfter (v : Version) (i : Instr) : Bool :=
  match v with
  | .v10 => false
  | .v11 => false
  | .v12 => isRA16 i.shape
  | .v13 => isRA16 i.shape || decide (i.shape = .reti)
  | .v20 => isRA16 i.shape || isRW16 i.shape || decide (i.shape = .reti)

/-- No sampling after an MDS access of [1.3] (R459). -/
def noSampleAfter13 (i : Instr13) : Bool := decide (i = .mdsEqR3) || decide (i = .r3EqMds)

/-! ### Fetch (R26, R29, R120) -/

/-- Go on to `nextpc`, with the sampling rule of the instruction set (R28, R459). -/
def State.begin (s : State) (words : Nat) (hold : Bool) : State := { s.advance words with hold := hold }

/-- What the words at `{SR.CS, PC}` are. -/
inductive Fetched where
  /-- An instruction of the table. -/
  | base (i : Instr)
  /-- An instruction only [1.3] has. -/
  | only13 (i : Instr13)
  /-- No instruction. -/
  | none (why : Unassigned)
  deriving DecidableEq, Repr

/-- The words after the first of an instruction the table has, `i` being what the first word says, with operand words of
0 (R120): a second word, and in [2.0] a third where the first two say so. -/
def State.fetchRest (s t : State) (w0 : Word) (i : Instr) : Fetched × State :=
  let read (r : Except Unassigned Instr) : Fetched :=
    match r with
    | .ok j => .base j
    | .error why => .none why
  if i.words = 1 then (.base i, t)
  else
    let w1 := t.load (s.seqAddr 1)
    match decode s.cfg w0 w1.1 0 with
    | .error why => (.none why, w1.2)
    | .ok j =>
      if j.words = 2 then (.base j, w1.2)
      else
        let w2 := w1.2.load (s.seqAddr 2)
        (read (decode s.cfg w0 w1.1 w2.1), w2.2)

/-- The words after the first of an instruction only [1.3] has (R120, R139). -/
def State.fetchRest13 (s t : State) (i : Instr13) : Fetched × State :=
  if i.words = 1 then (.only13 i, t)
  else
    let w1 := t.load (s.seqAddr 1)
    (.only13 (i.withSecond w1.1), w1.2)

/-- Fetch the instruction at `{SR.CS, PC}`: as many words as it has, one after the other (R26, R29, R120). In [1.3] a first
word the table gives no row is left to DECODE_13 (R139, R144). -/
def State.fetch (s : State) : Fetched × State :=
  let w := s.load (s.seqAddr 0)
  let w0 := s.cfg.firstWord w.1
  match decode s.cfg w0 0 0 with
  | .ok i => s.fetchRest w.2 w0 i
  | .error why =>
    match (if s.cfg.ver = .v13 then Config.decode13 w0 else none) with
    | some i => s.fetchRest13 w.2 i
    | none => (.none why, w.2)

end Sys2Proof.Machine
end

