-- ==== Sys2Proof/Machine/Step.lean ====
section
/-! DEFINITION. One step of the machine. A step is the reset sequence, a period in which a pin holds the core, the entry
of one interrupt, or one instruction (spec R459, R475, R490 to R493). -/

namespace Sys2Proof.Machine

open Sys2Proof

/-- Fetch and run one instruction (R28, R459). -/
def runNext (s : State) : Out :=
  let f := s.fetch
  match f.1 with
  | .base i => exec i (f.2.begin i.words (noSampleAfter s.cfg.ver i))
  | .only13 i => exec13 i (f.2.begin i.words (noSampleAfter13 i))
  | .none why => .refused (.unassigned why)

/-- The request a step takes: none right after the instructions of R459. -/
def State.sampled (s : State) : Option Event := if s.hold then none else s.request

/-- One step: reset before all (R475), then the holding pins (R491 to R493), DMA (R490), a request (R452), an
instruction. DESIGN CHOICE: the order of reset, the holding pins and DMA where several are active (logs 55 and 56), and that
a DMA request ends in the first step that finds DMAQ low, with DMACK falling and the core going on in that step (log 57). -/
def step (s : State) : Host.Outcome State Fault Refusal :=
  if s.pins.reset then .next s.resetSequence
  else if s.stalled then .next s
  else if s.dmaGranted then .next { s.dmaPoint with dmack := true }
  else
    let t : State := { s with dmack := false }
    match t.sampled with
    | some e => .next (t.takeRequest e)
    | none => runNext t

/-- The pins with nothing requested. -/
def Pins.idle : Pins :=
  { reset := false, fiq := false, irq := false, irqs := 0, irqLines := 0, dmaq := false, sleep := false,
    pd := false, hdumprom := false }

/-- The parameters with RAM behind an address. -/
def withRam (p : Params) (a : Addr) : Params :=
  if p.backing a = .ram then p else { p with memmap := { first := a, last := a, kind := .ram } :: p.memmap }

/-- The bits `w` of a table row of `nbits` bits as an instruction at `{SR.CS, PC}`, the bits above 0, up to the three
words of the longest one, in RAM and in the encodings of the table; the pins idle and no DMA ahead, so that the next step
fetches and runs it (log 7). -/
def State.withFetchWord (s : State) (nbits w : Nat) : State :=
  let v := w % 2 ^ nbits
  let p : Params := { s.cfg with enc1011 := .as12 }
  { s with
    cfg := withRam (withRam (withRam p (s.seqAddr 0)) (s.seqAddr 1)) (s.seqAddr 2)
    pins := Pins.idle
    dma := []
    mem := Memory.writeWord (Memory.writeWord (Memory.writeWord s.mem (s.seqAddr 0) (tableWord v 0))
      (s.seqAddr 1) (tableWord v 1)) (s.seqAddr 2) (tableWord v 2) }

end Sys2Proof.Machine
end

