-- ==== Sys2Proof/Safety.lean ====
section
/-! DEFINITION. The terms the statements use: the invariant of the machine, what an instruction may leave unchanged, and
the results the rules state, written from the rules' own formulas and not from the model's functions. -/

namespace Sys2Proof.Machine

open Sys2Proof

/-! ### The invariant -/

/-- Which level may lie over which: a level is pushed only over levels of lower priority, but for a nested IRQ on an IRQ
[1.2+], an FIQ on an FIQ [1.3], and a BREAK on a BREAK; in [1.0] and [1.1] BREAK is no level (R468). -/
def levelOver (ver : Version) (above below : Level) : Bool :=
  match above, below with
  | .brk, _ => ver.is12Plus
  | .fiq, .irq => true
  | .fiq, .fiq => decide (ver = .v13)
  | .fiq, .brk => false
  | .irq, .irq => ver.is12Plus
  | .irq, .fiq => false
  | .irq, .brk => false

/-- Every level may lie over the one below it (R468). -/
def svcOrdered (ver : Version) : List Level → Bool
  | [] => true
  | [l] => decide (l ≠ .brk) || ver.is12Plus
  | a :: b :: t => levelOver ver a b && svcOrdered ver (b :: t)

/-- The invariant: memory has its canonical form and SVC is ordered. -/
def State.Inv (s : State) : Prop := Memory.wf s.mem = true ∧ svcOrdered s.cfg.ver s.svc = true

/-! ### Memory, the memory map and DMA -/

/-- The traffic of the DMA master that lies ahead writes the word at `a` (R111, R490). -/
def DmaWrites (s : State) (a : Addr) : Prop :=
  (s.cfg.ver = .v12 ∨ s.cfg.ver = .v13) ∧ ∃ l ∈ s.dma, ∃ v : Word, DmaAccess.write a v ∈ l

/-- A word that reads the same until the core stores to it: no device, and not written by DMA. -/
def Steady (s : State) (a : Addr) : Prop := s.cfg.backing a ≠ .device ∧ ¬ DmaWrites s a

/-- A word that keeps what the core stores: RAM, and not written by DMA. -/
def Kept (s : State) (a : Addr) : Prop := s.cfg.backing a = .ram ∧ ¬ DmaWrites s a

/-- One of the three words after the running instruction, in [2.0] (R105, R517): `s` is at `nextpc`. -/
def Ahead (s : State) (a : Addr) : Prop :=
  s.cfg.ver = .v20 ∧ ∃ k : Nat, k < 3 ∧ a = s.nextPc + BitVec.ofNat 22 k

/-! ### Frames -/

/-- R1 to R4 of the bank not in use (R30). -/
def State.otherBank (s : State) : List Word :=
  if s.bank then [s.regs.r1, s.regs.r2, s.regs.r3, s.regs.r4] else [s.regs.s1, s.regs.s2, s.regs.s3, s.regs.s4]

/-- The parameters, the pins, FR, MDS, SVC, DMACK and the model's own counters are unchanged. -/
def CoreSame (s t : State) : Prop :=
  t.cfg = s.cfg ∧ t.pins = s.pins ∧ t.flags = s.flags ∧ t.mds = s.mds ∧ t.svc = s.svc ∧ t.dmack = s.dmack
    ∧ t.hold = s.hold ∧ t.freeIdx = s.freeIdx ∧ t.otherBank = s.otherBank

/-- Those, SS and the shift buffers are unchanged: every special register but SR and PC. -/
def SysSame (s t : State) : Prop := CoreSame s t ∧ t.ss = s.ss ∧ t.sb = s.sb

/-- Every byte of memory is unchanged, no device has seen an access, and no DMA access has happened. -/
def MemSame (s t : State) : Prop :=
  (∀ k : Nat, Memory.readByte t.mem k = Memory.readByte s.mem k) ∧ t.devLog = s.devLog ∧ t.dma = s.dma

/-- Every byte of memory that no DMA access writes is unchanged: what an instruction leaves that loads several words. -/
def MemSameBarDma (s t : State) : Prop :=
  ∀ k : Nat, ¬ DmaWrites s (BitVec.ofNat 22 (k / 2)) → Memory.readByte t.mem k = Memory.readByte s.mem k

/-- Every byte of memory outside the word at `ea` is unchanged. -/
def MemSameBut (ea : Addr) (s t : State) : Prop :=
  ∀ k : Nat, k ≠ 2 * ea.toNat → k ≠ 2 * ea.toNat + 1 → Memory.readByte t.mem k = Memory.readByte s.mem k

/-- `t` is `s` with the word `v` written at `ea` (R70, R100): RAM holds it, a device has seen it, ROM and unbacked
addresses ignore it; every byte outside the word is unchanged. -/
def Stored (ea : Addr) (v : Word) (s t : State) : Prop :=
  MemSameBut ea s t ∧ t.dma = s.dma ∧
    (s.cfg.backing ea = .ram → t.readWord ea = v ∧ t.devLog = s.devLog) ∧
    (s.cfg.backing ea = .device → t.mem = s.mem ∧ t.devLog = .write ea v :: s.devLog) ∧
    (s.cfg.backing ea ≠ .ram → s.cfg.backing ea ≠ .device → t.mem = s.mem ∧ t.devLog = s.devLog)

/-- `t` is `s` with the byte `v` written at the byte address `e` of [1.3] (R96, R100). -/
def StoredByte (e : BitVec 23) (v : BitVec 8) (s t : State) : Prop :=
  (∀ k : Nat, k ≠ e.toNat → Memory.readByte t.mem k = Memory.readByte s.mem k) ∧ t.dma = s.dma ∧
    (s.cfg.backing (BitVec.ofNat 22 (e.toNat / 2)) = .ram → t.readByte e = v ∧ t.devLog = s.devLog) ∧
    (s.cfg.backing (BitVec.ofNat 22 (e.toNat / 2)) = .device →
      t.mem = s.mem ∧ t.devLog = .writeByte e v :: s.devLog) ∧
    (s.cfg.backing (BitVec.ofNat 22 (e.toNat / 2)) ≠ .ram → s.cfg.backing (BitVec.ofNat 22 (e.toNat / 2)) ≠ .device →
      t.mem = s.mem ∧ t.devLog = s.devLog)

/-- Every register but SR, PC and `g` is unchanged, the extend registers among them. -/
def RegsSameBut (g : GReg) (s t : State) : Prop :=
  ∀ q : GReg, q ≠ g → q ≠ .core .sr → q ≠ .core .pc → t.greg q = s.greg q

/-- Every register but SR and PC is unchanged. -/
def RegsSame (s t : State) : Prop := ∀ q : GReg, q ≠ .core .sr → q ≠ .core .pc → t.greg q = s.greg q

/-! ### The ALU by R200 and R201 -/

/-- The result of an operation (R201): SBC subtracts one more when C = 0 (R206). -/
def specResult (op : AluOp) (a b : Word) (c : Bool) : Word :=
  match op with
  | .add => a + b
  | .adc => if c then a + b + 1 else a + b
  | .sub => a - b
  | .sbc => if c then a - b else a - b - 1
  | .cmp => a - b
  | .neg => -b
  | .xor => a ^^^ b
  | .load => b
  | .or => a ||| b
  | .and => a &&& b
  | .test => a &&& b

/-- C after an operation (R200, R201): the carry out of bit 15; for a subtraction C = 1 means no borrow. -/
def specC (op : AluOp) (a b : Word) (t : Status) : Bool :=
  match op with
  | .add => decide (65536 ≤ a.toNat + b.toNat)
  | .adc => decide (65536 ≤ a.toNat + b.toNat + t.c.toNat)
  | .sub => decide (b.toNat ≤ a.toNat)
  | .cmp => decide (b.toNat ≤ a.toNat)
  | .sbc => if t.c then decide (b.toNat ≤ a.toNat) else decide (b.toNat + 1 ≤ a.toNat)
  | .neg | .xor | .load | .or | .and | .test => t.c

/-- S after an operation (R200, R201): the sign of the true result. -/
def specS (op : AluOp) (a b : Word) (t : Status) : Bool :=
  match op with
  | .add => decide (a.toInt + b.toInt < 0)
  | .adc => decide (a.toInt + b.toInt + t.c.toNat < 0)
  | .sub => decide (a.toInt < b.toInt)
  | .cmp => decide (a.toInt < b.toInt)
  | .sbc => decide (a.toInt - b.toInt - 1 + t.c.toNat < 0)
  | .neg | .xor | .load | .or | .and | .test => t.s

/-- N, Z, S and C of `t` are those of the operation on `a`, `b` in `s`; DS and CS are unchanged (R200, R201). -/
def AluFlags (op : AluOp) (a b : Word) (s t : State) : Prop :=
  t.status.n = (specResult op a b s.status.c).getLsbD 15 ∧ t.status.z = decide (specResult op a b s.status.c = 0)
    ∧ t.status.s = specS op a b s.status ∧ t.status.c = specC op a b s.status
    ∧ t.status.ds = s.status.ds ∧ t.status.cs = s.status.cs

/-- CMP and TEST store no result (R208, R212). -/
def AluCompares (op : AluOp) : Prop := op = .cmp ∨ op = .test

/-- The template R222 with operands `a`, `b` and destination `g`: CMP and TEST write flags alone, and none with Rd = PC;
a result in PC is a jump in the page and leaves the flags; a result in SR replaces all of it; every other result comes
with its flags. Nothing else changes. -/
def AluEffect (op : AluOp) (g : GReg) (a b : Word) (s t : State) : Prop :=
  (AluCompares op →
    (g = .core .pc → t.status = s.status) ∧ (g ≠ .core .pc → AluFlags op a b s t) ∧ t.pc = s.pc ∧ RegsSame s t) ∧
  (¬ AluCompares op →
    (g = .core .pc → t.pc = specResult op a b s.status.c ∧ t.status = s.status) ∧
    (g = .core .sr → t.srWord = specResult op a b s.status.c ∧ t.pc = s.pc) ∧
    (g ≠ .core .pc → g ≠ .core .sr →
      t.greg g = specResult op a b s.status.c ∧ AluFlags op a b s t ∧ t.pc = s.pc) ∧
    RegsSameBut g s t) ∧
  SysSame s t ∧ MemSame s t

/-- An ALU instruction answers a next state with the effect of the template. -/
def AluDone (o : Out) (op : AluOp) (g : GReg) (a b : Word) (s : State) : Prop :=
  ∃ t : State, o = .next t ∧ AluEffect op g a b s t

/-- An ALU instruction with a memory operand: Y is the word loaded from `ea`, after which the template runs. What a load
is, with the DMA master's turn before it, is a statement of its own. -/
def AluLoadDone (o : Out) (op : AluOp) (g : GReg) (a : Word) (ea : Addr) (s : State) : Prop :=
  AluDone o op g a (s.load ea).1 (s.load ea).2

/-- An instruction that stores to `ea` in [2.0] stops where `ea` is one of the three words after it (R105, R517), and
elsewhere answers as `P` says. -/
def UnlessAhead (o : Out) (ea : Addr) (s : State) (P : Prop) : Prop :=
  (¬ Ahead s ea → P) ∧ (Ahead s ea → o = .refused .storeAhead)

/-- The W = 1 form (R219): after the DMA master's turn the result of `a`, `b` goes to the word at `ea` (nothing is stored
for CMP and TEST), the flags are always written, and no register is. -/
def AluStoreDone (o : Out) (op : AluOp) (ea : Addr) (a b : Word) (s : State) : Prop :=
  (AluCompares op →
    ∃ t : State, o = .next t ∧ MemSame s t ∧ AluFlags op a b s t ∧ t.pc = s.pc ∧ RegsSame s t ∧ SysSame s t) ∧
  (¬ AluCompares op → UnlessAhead o ea s
    (∃ t : State, o = .next t ∧ Stored ea (specResult op a b s.status.c) s.dmaPoint t ∧
      AluFlags op a b s t ∧ t.pc = s.pc ∧ RegsSame s t ∧ SysSame s t))

/-- A store of `v` at `ea` (R171): after the DMA master's turn that word alone changes; no register, no flag (R200). -/
def StoreDone (o : Out) (ea : Addr) (v : Word) (s : State) : Prop :=
  UnlessAhead o ea s
    (∃ t : State, o = .next t ∧ Stored ea v s.dmaPoint t ∧ t.status = s.status ∧ t.pc = s.pc ∧ RegsSame s t ∧
      SysSame s t)

/-! ### Pointers by R87 -/

/-- The pointer plus or minus one, as @ asks. -/
def specPointer (m : PtrMode) (p : Word) : Word :=
  match m with
  | .keep => p
  | .postDec => p - 1
  | .postInc => p + 1
  | .preInc => p + 1

/-- DS after the pointer moves with `D:` in [1.1+]: the carry or borrow of the 16-bit pointer goes into it. -/
def specPointerDs (m : PtrMode) (p : Word) (ds : Page) : Page :=
  match m with
  | .keep => ds
  | .postDec => if p = 0 then ds - 1 else ds
  | .postInc => if p = 0xFFFF#16 then ds + 1 else ds
  | .preInc => if p = 0xFFFF#16 then ds + 1 else ds

/-- The address of `{D:}[Rs@]` with pointer value `p`: page DS or 0, and for `[++Rs]` the stepped pointer. -/
def specPointerEa (ver : Version) (d : Bool) (m : PtrMode) (p : Word) (ds : Page) : Addr :=
  match m with
  | .preInc => mkAddr (if d then (if ver = .v10 then ds else specPointerDs m p ds) else 0) (p + 1)
  | .keep | .postDec | .postInc => mkAddr (if d then ds else 0) p

/-- `t` is `s` with the pointer register `g` of `{D:}[Rs@]` moved, and with `D:` in [1.1+] the carry in DS (R87). -/
def PointerMoved (d : Bool) (m : PtrMode) (g : GReg) (s t : State) : Prop :=
  t.greg g = specPointer m (s.greg g)
    ∧ t.status =
        { s.status with
          ds := if d = true ∧ s.cfg.ver ≠ .v10 then specPointerDs m (s.greg g) s.status.ds else s.status.ds }
    ∧ RegsSameBut g s t ∧ t.pc = s.pc ∧ SysSame s t ∧ MemSame s t

/-- The operand pairs whose pointer update the spec does not refuse (R87). -/
def PointerFree (m : PtrMode) (rd rs : GReg) : Prop :=
  m = .keep ∨ (rs ≠ rd ∧ rs ≠ .core .sr ∧ rs ≠ .core .pc)

/-- `Rd # = {D:}[Rs@]`: X is Rd, Y the word loaded at the pointer; the pointer moves, then the result is written (R80,
R86, R87, R222). -/
def IndDone (o : Out) (op : AluOp) (rd : GReg) (d : Bool) (m : PtrMode) (rs : GReg) (s : State) : Prop :=
  let y := s.load (specPointerEa s.cfg.ver d m (s.greg rs) s.status.ds)
  ∃ s1 : State, PointerMoved d m rs y.2 s1 ∧ AluDone o op rd (s.greg rd) y.1 s1

/-- `{D:}[Rs@] = Rd`: the pointer moves before the store for `[++Rs]`, after it for the others (R171, R87). -/
def StoreIndDone (o : Out) (rd : GReg) (d : Bool) (m : PtrMode) (rs : GReg) (s : State) : Prop :=
  ∃ s1 : State, PointerMoved d m rs s s1 ∧
    StoreDone o (specPointerEa s.cfg.ver d m (s.greg rs) s.status.ds)
      (if m = .preInc then s1.greg rd else s.greg rd) s1

/-- The address of `[BP+IM6]` (R83): 16 bits in page 0, and in [1.3] 22 bits from `{SS, BP}`. -/
def specBpEa (s : State) (im : BitVec 6) : Addr :=
  if s.cfg.ver = .v13 then BitVec.ofNat 22 (s.ss.toNat * 65536 + (s.reg .bp).toNat + im.toNat)
  else BitVec.ofNat 22 (((s.reg .bp).toNat + im.toNat) % 65536)

/-! ### The 4-bit shifter by R214 to R218 -/

/-- Y of a shift by `n` of 1 to 4 of the register value `v` with the shift buffer `sb`. -/
def specShiftY (k : Shift4) (v : Word) (sb : BitVec 4) (n : Nat) : Word :=
  match k with
  | .asr => BitVec.ofInt 16 (v.toInt / 2 ^ n)
  | .lsl => BitVec.ofNat 16 (v.toNat * 2 ^ n)
  | .lsr => BitVec.ofNat 16 (v.toNat / 2 ^ n)
  | .rol => BitVec.ofNat 16 (v.toNat * 2 ^ n + sb.toNat / 2 ^ (4 - n))
  | .ror => BitVec.ofNat 16 (v.toNat / 2 ^ n + (sb.toNat % 2 ^ n) * 2 ^ (16 - n))

/-- The shift buffer after it: the bits that left the register beside the bits of SB that stay. -/
def specShiftBuf (k : Shift4) (v : Word) (sb : BitVec 4) (n : Nat) : BitVec 4 :=
  match k with
  | .asr | .lsr | .ror => BitVec.ofNat 4 (v.toNat % 2 ^ n * 2 ^ (4 - n) + sb.toNat / 2 ^ n)
  | .lsl | .rol => BitVec.ofNat 4 (sb.toNat * 2 ^ n + v.toNat / 2 ^ (16 - n))

/-- `s` with the shift buffer in use holding `v` (R36, R473). -/
def withShiftBuf (s : State) (v : BitVec 4) : State :=
  if .fiq ∈ s.svc then { s with sb := { s.sb with fiq := v } }
  else if .irq ∈ s.svc then { s with sb := { s.sb with irq := v } }
  else { s with sb := { s.sb with user := v } }

/-- `Rd # = Rs SFT nn`: the shift buffer in use takes the bits shifted out, and the operation runs on Rd and the shifted
Rs (R213 to R218, R222). -/
def ShiftDone (o : Out) (op : AluOp) (k : Shift4) (rd : Reg) (nn : BitVec 2) (rs : Reg) (s : State) : Prop :=
  AluDone o op (.core rd) (s.reg rd) (specShiftY k (s.reg rs) s.shiftBuf (nn.toNat + 1))
    (withShiftBuf s (specShiftBuf k (s.reg rs) s.shiftBuf (nn.toNat + 1)))

/-! ### The stack by R172, R173, R330 -/

/-- The address `i` words below a stack pointer: in page 0, or in [1.3] below `{SS, R}` over 22 bits (R22, R42). -/
def stackDown (s : State) (g : GReg) (i : Nat) : Addr :=
  if s.cfg.ver = .v13 then mkAddr s.ss (s.greg g) - BitVec.ofNat 22 i else mkAddr 0 (s.greg g - BitVec.ofNat 16 i)

/-- The address `i` words above a stack pointer (R22, R42). -/
def stackUp (s : State) (g : GReg) (i : Nat) : Addr :=
  if s.cfg.ver = .v13 then mkAddr s.ss (s.greg g) + BitVec.ofNat 22 i else mkAddr 0 (s.greg g + BitVec.ofNat 16 i)

/-- Every byte outside the `n` words from the stack pointer downwards is unchanged, but for those DMA writes. -/
def MemSameButStack (g : GReg) (n : Nat) (s t : State) : Prop :=
  ∀ k : Nat, (∀ i : Nat, i < n → k / 2 ≠ (stackDown s g i).toNat) → ¬ DmaWrites s (BitVec.ofNat 22 (k / 2)) →
    Memory.readByte t.mem k = Memory.readByte s.mem k

/-- One of the `n` words from the stack pointer downwards is one of the words fetched ahead of [2.0] (R105, R517). -/
def StackAhead (g : GReg) (n : Nat) (s : State) : Prop := ∃ i : Nat, i < n ∧ Ahead s (stackDown s g i)

/-- `t` is `s` with the stack pointer `g` moved down by `n` (R22, R42). -/
def StackDownBy (g : GReg) (n : Nat) (s t : State) : Prop :=
  t.greg g = offsetOf (stackDown s g n) ∧ t.ss = (if s.cfg.ver = .v13 then pageOf (stackDown s g n) else s.ss)

/-- `t` is `s` with the stack pointer `g` moved up by `n` (R22, R42). -/
def StackUpBy (g : GReg) (n : Nat) (s t : State) : Prop :=
  t.greg g = offsetOf (stackUp s g n) ∧ t.ss = (if s.cfg.ver = .v13 then pageOf (stackUp s g n) else s.ss)

/-- PUSH of `n` registers through `g`, `q i` being the register stored `i`-th (R172): each lies one word below the one
before (in RAM that DMA leaves alone it then reads so), the pointer ends `n` lower; no other register, no flag and no
other byte changes. In [2.0] it stops where one of the words is one fetched ahead. -/
def PushDone (o : Out) (g : GReg) (n : Nat) (q : Nat → GReg) (s : State) : Prop :=
  (¬ StackAhead g n s → ∃ t : State, o = .next t ∧
    (∀ i : Nat, i < n → Kept s (stackDown s g i) → t.readWord (stackDown s g i) = s.greg (q i)) ∧
    MemSameButStack g n s t ∧ StackDownBy g n s t ∧ RegsSameBut g s t ∧
    (g ≠ .core .sr → t.status = s.status) ∧ (g ≠ .core .pc → t.pc = s.pc) ∧ CoreSame s t ∧ t.sb = s.sb) ∧
  (StackAhead g n s → o = .refused .storeAhead)

/-- What POP of `n` registers through `g` leaves, `q i` being the register loaded `i`-th, for `i` from 1 (R173): each
takes the next word up (stated of the words that no device and no DMA access changes meanwhile), the pointer ends `n`
higher; no other register and no byte of memory changes. -/
def PopEffect (g : GReg) (n : Nat) (q : Nat → GReg) (s t : State) : Prop :=
  (∀ i : Nat, 1 ≤ i → i ≤ n → Steady s (stackUp s g i) → t.greg (q i) = s.readWord (stackUp s g i)) ∧
    StackUpBy g n s t ∧
    (∀ r : GReg, r ≠ g → (∀ i : Nat, 1 ≤ i → i ≤ n → r ≠ q i) → r ≠ .core .sr → r ≠ .core .pc → t.greg r = s.greg r) ∧
    (g ≠ .core .pc → (∀ i : Nat, 1 ≤ i → i ≤ n → q i ≠ .core .pc) → t.pc = s.pc) ∧
    MemSameBarDma s t ∧ CoreSame s t ∧ t.sb = s.sb

/-- The core register whose number is that of `r` plus `k` (R20). -/
def regPlus (r : Reg) (k : Int) : GReg := .core (Reg.ofNum (BitVec.ofInt 3 (r.num.toNat + k)))

/-- The extend register whose number is 8 + `k` (R44). -/
def xregAt (k : Int) : GReg := .ext (XReg.ofNum (BitVec.ofInt 3 k))

/-- The return state is on the stack (R330, R467): PC at the pointer of `s`, SR below it, and below that `fr` where one
is given (each stated of RAM that DMA leaves alone); every other byte is unchanged and SP is as many words lower. -/
def ReturnStateSaved (fr : Option Word) (s t : State) : Prop :=
  (Kept s (stackDown s (.core .sp) 0) → t.readWord (stackDown s (.core .sp) 0) = s.pc) ∧
    (Kept s (stackDown s (.core .sp) 1) → t.readWord (stackDown s (.core .sp) 1) = s.srWord) ∧
    (∀ w : Word, fr = some w → Kept s (stackDown s (.core .sp) 2) → t.readWord (stackDown s (.core .sp) 2) = w) ∧
    MemSameButStack (.core .sp) (if fr.isSome then 3 else 2) s t ∧
    StackDownBy (.core .sp) (if fr.isSome then 3 else 2) s t ∧ RegsSameBut (.core .sp) s t

/-- DS, N, Z, S and C are unchanged. -/
def FlagsAndDsSame (s t : State) : Prop :=
  t.status.ds = s.status.ds ∧ t.status.n = s.status.n ∧ t.status.z = s.status.z ∧ t.status.s = s.status.s
    ∧ t.status.c = s.status.c

/-- What RETF takes from the stack (R333): SR is the word loaded above the pointer, PC the word loaded next above it; SP
ends 2 higher; no other register and no special register but SS changes, and memory is as the two loads leave it. -/
def ReturnedFar (s t : State) : Prop :=
  let y := s.load (stackUp s (.core .sp) 1)
  let z := y.2.load (stackUp s (.core .sp) 2)
  t.srWord = y.1 ∧ t.pc = z.1 ∧ StackUpBy (.core .sp) 2 s t ∧ RegsSameBut (.core .sp) s t ∧ MemSame z.2 t

/-- The handler's address (R351, R453, R454, R462): `{0, the word of the vector slot}`, the last word the entry reads. -/
def AtVector (slot : BitVec 4) (s t : State) : Prop :=
  let a : Addr := vectorAddr s.cfg slot
  t.status.cs = 0 ∧ (s.cfg.backing a ≠ .device → t.pc = t.readWord a) ∧
    (s.cfg.backing a = .device → ∃ l : List DeviceAccess, t.devLog = .read a :: l ∧ t.pc = Config.deviceRead l a)

/-! ### MULS by R263 to R267 -/

/-- The address of level `i` of an operand array of MULS that starts at pointer `p` in page `seg`: page 0, or in [1.3]
the pages of MDS, the address counted over 22 bits (R263). -/
def mulsAddr (ver : Version) (seg : Page) (p : Word) (i : Nat) : Addr :=
  if ver = .v13 then mkAddr seg p + BitVec.ofNat 22 i else mkAddr 0 (p + BitVec.ofNat 16 i)

/-- A product by signedness, doubled in fraction mode (R260, R262). -/
def specProduct (k : MulKind) (fraction : Bool) (x y : Word) : Int :=
  let p : Int :=
    match k with
    | .uu => (x.toNat : Int) * y.toNat
    | .us => (x.toNat : Int) * y.toInt
    | .ss => x.toInt * y.toInt
  if fraction then p + p else p

/-- The sum of the first `n` products (R267). -/
def specSum (k : MulKind) (fraction : Bool) (x y : Nat → Word) : Nat → Int
  | 0 => 0
  | n + 1 => specSum k fraction x y n + specProduct k fraction (x n) (y n)

/-- Fraction mode is on (R34, R262): FR.FRA, which [1.0] and [1.1] do not have. -/
def FractionOn (s : State) : Bool := s.flags.fra && s.cfg.ver.is12Plus

/-- The effect of MULS with level count `c`, products of the words `x i` and `y i` and Rd-side addresses `ea`, where `move`
says that the FIR move is on (R261 to R267): MR, the guard bits and S in [1.2+], the pointers, the moved words. -/
def MulsEffect (k : MulKind) (rd rs : Reg) (c : Nat) (x y : Nat → Word) (ea es : Nat → Addr) (move : Bool) (s t : State) :
    Prop :=
  let acc : BitVec 36 := BitVec.ofInt 36 (specSum k (FractionOn s) x y c)
  t.mr = acc.extractLsb' 0 32
    ∧ (s.cfg.ver.is12Plus = true → t.shiftBuf = acc.extractLsb' 32 4 ∧ t.freeIdx = s.freeIdx)
    ∧ (rd ≠ .r3 → rd ≠ .r4 → rd ≠ .sr → t.reg rd = offsetOf (ea c))
    ∧ (rs ≠ .r3 → rs ≠ .r4 → rs ≠ .sr → t.reg rs = offsetOf (es c))
    ∧ t.mds = (if s.cfg.ver = .v13 then { segD := pageOf (ea c), segS := pageOf (es c) } else s.mds)
    ∧ (rd ≠ .sr → rs ≠ .sr →
        t.status = { s.status with
          s := if s.cfg.ver.is12Plus then decide (acc ≠ (acc.extractLsb' 0 32).signExtend 36)
               else s.status.s })
    ∧ (rd ≠ .pc → rs ≠ .pc → t.pc = s.pc)
    ∧ (∀ q : GReg, q ≠ .core rd → q ≠ .core rs → q ≠ .core .r3 → q ≠ .core .r4 → q ≠ .core .sr → q ≠ .core .pc →
        t.greg q = s.greg q)
    ∧ (move = false → MemSameBarDma s t)
    ∧ (move = true →
        (∀ i : Nat, 1 ≤ i → i < c → t.readWord (ea i) = x (i - 1)) ∧
        ∀ b : Nat, (∀ i : Nat, 1 ≤ i → i < c → b / 2 ≠ (ea i).toNat) → ¬ DmaWrites s (BitVec.ofNat 22 (b / 2)) →
          Memory.readByte t.mem b = Memory.readByte s.mem b)
    ∧ (∃ v : BitVec 4, t.sb = (withShiftBuf s v).sb)
    ∧ t.cfg = s.cfg ∧ t.pins = s.pins ∧ t.flags = s.flags ∧ t.ss = s.ss ∧ t.svc = s.svc ∧ t.dmack = s.dmack
    ∧ t.hold = s.hold ∧ t.otherBank = s.otherBank

/-- The level count of MULS (R261). -/
def levelCount (n : BitVec 4) : Nat := if n = 0#4 then 16 else n.toNat

/-- The register operands MULS may have (R266). -/
def MulsOperandsOk (ver : Version) (rd rs : Reg) (c : Nat) : Prop :=
  if ver.is12Plus then ¬ (1 < c ∧ rd = rs ∧ (rd = .r3 ∨ rd = .r4))
  else (rd = .r1 ∨ rd = .r2 ∨ rd = .bp) ∧ (rs = .r1 ∨ rs = .r2 ∨ rs = .bp) ∧ rd ≠ rs

/-- MULS on two different pointers: the arrays count up from the two pointers. With the FIR move, in [2.0] it stops where
a word it stores is one fetched ahead. It completes whatever the words are; its effect is stated of words that no device
and no DMA access changes meanwhile, and of a Rd-side array in RAM where the move is on. -/
def MulsDone (o : Out) (k : MulKind) (rd rs : Reg) (n : BitVec 4) (move : Bool) (s : State) : Prop :=
  let ea : Nat → Addr := mulsAddr s.cfg.ver s.mds.segD (s.reg rd)
  let es : Nat → Addr := mulsAddr s.cfg.ver s.mds.segS (s.reg rs)
  let ahead : Prop := move = true ∧ ∃ i : Nat, 1 ≤ i ∧ i < levelCount n ∧ Ahead s (ea i)
  (ahead → o = .refused .storeAhead) ∧
  (¬ ahead → ∃ t : State, o = .next t ∧
    ((∀ i : Nat, i < levelCount n → Steady s (ea i) ∧ Steady s (es i)) →
      (move = true → ∀ i : Nat, 1 ≤ i → i < levelCount n → s.cfg.backing (ea i) = .ram) →
      MulsEffect k rd rs (levelCount n) (fun i => s.readWord (ea i)) (fun i => s.readWord (es i)) ea es move s t))

/-- MUL (R260): the product in MR; the registers, SR, memory and every special register but the shift buffer in use are
unchanged. What that buffer holds is left open (U1). -/
def MulDone (o : Out) (k : MulKind) (rd rs : Reg) (s : State) : Prop :=
  ∃ t : State, o = .next t ∧ t.mr = BitVec.ofInt 32 (specProduct k (FractionOn s) (s.reg rd) (s.reg rs))
    ∧ (∀ q : GReg, q ≠ .core .r3 → q ≠ .core .r4 → t.greg q = s.greg q) ∧ t.status = s.status ∧ t.pc = s.pc
    ∧ MemSame s t ∧ t.cfg = s.cfg ∧ t.pins = s.pins ∧ t.flags = s.flags ∧ t.ss = s.ss ∧ t.mds = s.mds
    ∧ t.svc = s.svc ∧ t.dmack = s.dmack ∧ t.hold = s.hold ∧ t.otherBank = s.otherBank
    ∧ (∃ v : BitVec 4, t.sb = (withShiftBuf s v).sb)

/-! ### Bits by R290 -/

/-- Bit `k` after a bit operation on a bit that was `b`. -/
def specBit (op : BitOp) (b : Bool) : Bool :=
  match op with
  | .tst => b
  | .set => true
  | .clr => false
  | .inv => !b

/-- `w'` is `w` with bit `k` changed as the operation says. -/
def BitChanged (op : BitOp) (k : BitVec 4) (w w' : Word) : Prop :=
  ∀ j : Nat, j < 16 → w'.getLsbD j = if j = k.toNat then specBit op (w.getLsbD j) else w.getLsbD j

/-- SR with Z from the old bit (R290). -/
def statusZ (t : Status) (w : Word) (k : BitVec 4) : Status := { t with z := decide (w.getLsbD k.toNat = false) }

/-- A bit operation on a register (R290): Z from the old bit, and but for TSTB the register; SR as Rd is rewritten
whole. -/
def BitRegDone (o : Out) (op : BitOp) (rd : Reg) (k : BitVec 4) (s : State) : Prop :=
  ∃ t : State, o = .next t ∧
    (op = .tst → t.status = statusZ s.status (s.reg rd) k ∧ RegsSame s t ∧ t.pc = s.pc) ∧
    (op ≠ .tst → BitChanged op k (s.reg rd) (t.reg rd) ∧ RegsSameBut (.core rd) s t
      ∧ (rd ≠ .sr → t.status = statusZ s.status (s.reg rd) k) ∧ (rd ≠ .pc → t.pc = s.pc)) ∧
    MemSame s t ∧ SysSame s t

/-- A bit operation on the word at `ea` (R290): the word is loaded, Z comes from the old bit, and but for TSTB the word is
stored after another turn of the DMA master (R98). -/
def BitMemDone (o : Out) (op : BitOp) (ea : Addr) (k : BitVec 4) (s : State) : Prop :=
  let w := s.load ea
  let rest (t : State) : Prop :=
    t.status = statusZ s.status w.1 k ∧ RegsSame s t ∧ t.pc = s.pc ∧ SysSame s t
  (op = .tst → ∃ t : State, o = .next t ∧ MemSame w.2 t ∧ rest t) ∧
  (op ≠ .tst → UnlessAhead o ea s
    (∃ (t : State) (v : Word), o = .next t ∧ BitChanged op k w.1 v ∧ Stored ea v w.2.dmaPoint t ∧ rest t))

/-! ### Jumps and requests -/

/-- Everything but CS and PC is unchanged. -/
def OnlyJumped (s t : State) : Prop :=
  FlagsAndDsSame s t ∧ RegsSame s t ∧ MemSame s t ∧ SysSame s t

/-- The target of a taken branch: IM6 words after or before the next instruction (R335, R90), in [1.0] inside the page. -/
def BranchesTo (back : Bool) (im : BitVec 6) (s t : State) : Prop :=
  let d : Int := if back then -(im.toNat : Int) else im.toNat
  if s.cfg.ver = .v10 then t.status.cs = s.status.cs ∧ t.pc = BitVec.ofInt 16 (s.pc.toNat + d)
  else t.nextPc = BitVec.ofInt 22 (s.nextPc.toNat + d)

/-- A conditional branch: taken it goes to its target, not taken to the next instruction; it changes nothing else. -/
def BranchDone (o : Out) (taken : Bool) (back : Bool) (im : BitVec 6) (s : State) : Prop :=
  ∃ t : State, o = .next t ∧ (taken = true → BranchesTo back im s t ∧ OnlyJumped s t) ∧ (taken = false → t = s)

/-- No pin resets or holds the core. -/
def Running (s : State) : Prop := s.pins.reset = false ∧ s.stalled = false ∧ s.dmaGranted = false

/-- The request taken at a sampling point, by the lines of R452. In [1.0] and [1.1] `line` is a requesting IRQ line with
no requesting line below it. -/
def Takes (s : State) (e : Event) : Prop :=
  let top := s.svc.head?
  match s.cfg.ver, e with
  | .v10, .fiq | .v11, .fiq => s.pins.fiq = true ∧ s.flags.f = true ∧ Level.fiq ∉ s.svc
  | .v12, .fiq | .v20, .fiq => s.pins.fiq = true ∧ s.flags.f = true ∧ top ≠ some .brk ∧ top ≠ some .fiq
  | .v13, .fiq => s.pins.fiq = true ∧ s.flags.f = true ∧ top ≠ some .brk
  | .v10, .irq n | .v11, .irq n =>
    s.pins.irqLines.getLsbD n.toNat = true ∧ (∀ m : Nat, m < n.toNat → s.pins.irqLines.getLsbD m = false) ∧
      s.flags.i = true ∧ Level.irq ∉ s.svc ∧ Level.fiq ∉ s.svc
  | .v12, .irq n | .v20, .irq n =>
    s.pins.irq = true ∧ s.pins.irqs = n ∧ s.flags.i = true ∧ n.toNat < s.flags.pri.toNat ∧ top ≠ some .brk ∧
      top ≠ some .fiq ∧ (top = some .irq → s.flags.ine = true)
  | .v13, .irq n =>
    s.pins.irq = true ∧ s.pins.irqs = n ∧ s.flags.i = true ∧ n.toNat < s.flags.pri.toNat ∧ top ≠ some .brk ∧
      top ≠ some .fiq
  | _, _ => False

/-- FR is saved by an entry (R467): in [1.3] by FIQ and IRQ, in [1.2] and [2.0] by IRQ with INE = 1. -/
def SavesFr (s : State) (e : Event) : Bool :=
  match s.cfg.ver, e with
  | .v13, .fiq | .v13, .irq _ => true
  | .v12, .irq _ | .v20, .irq _ => s.flags.ine
  | _, _ => false

/-- FR after an entry (R469 to R471): [1.3] clears F and I for FIQ, clears I and sets PRI for IRQ; [1.2] and [2.0] set PRI
for IRQ with INE = 1; nothing else changes. -/
def specEntryFlags (s : State) (e : Event) : FlagReg :=
  match s.cfg.ver, e with
  | .v13, .fiq => { s.flags with f := false, i := false }
  | .v13, .irq n => { s.flags with i := false, pri := n.setWidth 4 }
  | .v12, .irq n | .v20, .irq n => if s.flags.ine then { s.flags with pri := n.setWidth 4 } else s.flags
  | _, _ => s.flags

/-- The level an interrupt pushes on SVC (R468). -/
def eventLevel (e : Event) : Level :=
  match e with
  | .fiq => .fiq
  | .irq _ => .irq
  | .brk => .brk
  | .ade => .brk

/-- The entry of an interrupt (R454): the return state on the stack, FR as the entry leaves it, the level in service, and
the handler's address `{0, vector word}`. -/
def Entered (e : Event) (s t : State) : Prop :=
  ReturnStateSaved (if SavesFr s e then some s.frWord else none) s t
    ∧ AtVector e.slot s t ∧ FlagsAndDsSame s t
    ∧ t.flags = specEntryFlags s e ∧ t.svc = eventLevel e :: s.svc
    ∧ t.cfg = s.cfg ∧ t.pins = s.pins ∧ t.sb = s.sb ∧ t.mds = s.mds ∧ t.freeIdx = s.freeIdx
    ∧ t.otherBank = s.otherBank

/-! ### Byte modes of [1.3] by R381 to R387 -/

/-- The byte step of an access (R381, D28). -/
def specStep (w : Width) : Nat :=
  match w with
  | .byte => 1
  | .word => 2

/-- The 23-bit pointer of a register pair (R92). -/
def specPair (x : PairReg) (s : State) : Nat := (s.reg (pairHigh x)).toNat % 128 * 65536 + (s.reg (pairLow x)).toNat

/-- The byte address of `[R@]` (R381). -/
def specPairAddr (w : Width) (m : PtrMode) (x : PairReg) (s : State) : BitVec 23 :=
  BitVec.ofNat 23 (specPair x s + if m = .preInc then specStep w else 0)

/-- `t` is `s` with the 23-bit pointer of the pair stepped as @ says, bits 31:23 of the pair kept (R92, R381). -/
def PairMoved (w : Width) (m : PtrMode) (x : PairReg) (s t : State) : Prop :=
  (specPair x t : Int) =
      (match m with
        | .keep => (specPair x s : Int)
        | .postDec => ((specPair x s : Int) - specStep w) % 8388608
        | .postInc => ((specPair x s : Int) + specStep w) % 8388608
        | .preInc => ((specPair x s : Int) + specStep w) % 8388608)
    ∧ (t.reg (pairHigh x)).extractLsb' 7 9 = (s.reg (pairHigh x)).extractLsb' 7 9
    ∧ (∀ q : GReg, q ≠ .core (pairHigh x) → q ≠ .core (pairLow x) → t.greg q = s.greg q)
    ∧ t.status = s.status ∧ t.pc = s.pc ∧ SysSame s t ∧ MemSame s t

/-- The value a byte-mode load at the byte address `e` makes of the word that holds it (R96, R382, R383). -/
def specByteValue (w : Width) (e : BitVec 23) (v : Word) : Word :=
  match w with
  | .byte => BitVec.ofNat 16 (if e.getLsbD 0 then v.toNat / 256 else v.toNat % 256)
  | .word => v

/-- A byte-mode load at `e` into Rd (R382, R383), the pointer update given by `moved`: the word is loaded and the template
of LOAD runs. -/
def ByteLoadDone (o : Out) (w : Width) (e : BitVec 23) (rd : Reg) (moved : State → State → Prop) (s : State) : Prop :=
  let y := s.load (BitVec.ofNat 22 (e.toNat / 2))
  ∃ s1 : State, moved y.2 s1 ∧ AluDone o .load (.core rd) (specByteValue w e y.1) (specByteValue w e y.1) s1

/-- A byte-mode store of `v` at the byte address `e` (R384 to R387), the pointer update given by `moved`: the byte or the
word, the pointer, and nothing else. -/
def ByteStoreDone (o : Out) (w : Width) (e : BitVec 23) (v : Word) (moved : State → State → Prop) (s : State) : Prop :=
  ∃ s1 t : State, moved s s1 ∧ o = .next t ∧ t.status = s1.status ∧ t.pc = s1.pc ∧ RegsSame s1 t ∧ SysSame s1 t ∧
    match w with
    | .byte => StoredByte e (BitVec.ofNat 8 v.toNat) s1.dmaPoint t
    | .word => Stored (BitVec.ofNat 22 (e.toNat / 2)) v s1.dmaPoint t

/-- The entry of AdE (R453, D18, D23): no access and no pointer update, FR.AdE set, PC and SR saved, the BREAK vector. -/
def AdeDone (o : Out) (s : State) : Prop :=
  ∃ t : State, o = .next t ∧ ReturnStateSaved none s t ∧ AtVector 5#4 s t ∧ FlagsAndDsSame s t ∧
    t.flags = { s.flags with top := true } ∧ t.svc = .brk :: s.svc ∧ t.sb = s.sb ∧ t.mds = s.mds ∧ t.cfg = s.cfg
    ∧ t.pins = s.pins ∧ t.dmack = s.dmack ∧ t.hold = s.hold ∧ t.freeIdx = s.freeIdx ∧ t.otherBank = s.otherBank

/-! ### Families -/

/-- The extended instructions of [2.0] (R431). -/
def isExtended (sh : Shape) : Bool :=
  match sh with
  | .extReg _ _ _ | .extIm16 _ _ _ _ | .extA16 _ _ _ _ _ | .extInd _ _ _ _ _ | .extIm6 _ _ _ | .extBpIm6 _ _ _
  | .extA6 _ _ _ | .extStoreA16 _ _ _ | .extStoreInd _ _ _ _ | .extStoreBpIm6 _ _ | .extStoreA6 _ _ | .extPush _ _ _
  | .extPop _ _ _ => true
  | _ => false

/-- The registers R8 to R15. -/
def State.xregs (s : State) : List Word :=
  [s.regs.x8, s.regs.x9, s.regs.x10, s.regs.x11, s.regs.x12, s.regs.x13, s.regs.x14, s.regs.x15]

end Sys2Proof.Machine
end

