-- ==== Sys2Proof/WellFormed.lean ====
section
/-! DEFINITION. The well-formed instructions: those some words encode, for given parameters (spec R50, R126, R141,
R144). A register restriction here is one of the encoding; the operands the spec refuses when an encodable instruction
runs (R144 (h) apart) are refusals of the machine. -/

namespace Sys2Proof

/-- Rd is R0 to R6 (R50 (a), (b), (d); with Rd = 7 the word is another instruction or none, R144). -/
def Reg.isR0toR6 (r : Reg) : Bool := decide (r ≠ .pc)

/-- The POP words that are RETF and RETI (R131). -/
def popIsReturn (rd : Reg) (n : BitVec 3) (rs : Reg) : Bool :=
  decide (rd = .bp) && decide (rs = .sp) && (decide (n = 2#3) || decide (n = 3#3))

/-- What the encoding asks of the operands of a shape. -/
def Shape.operandsOk (p : Params) : Shape → Bool
  | .aluBpIm6 _ rd _ => rd.isR0toR6
  | .aluIm6 _ rd _ => rd.isR0toR6
  | .storeBpIm6 rd _ => rd.isR0toR6
  | .bitRegReg _ rd _ => rd.isR0toR6
  | .bitRegOff _ rd _ => rd.isR0toR6
  | .bitMemReg _ rd _ _ => rd.isR0toR6
  | .bitMemOff _ rd _ _ => rd.isR0toR6
  | .shift16 _ rd _ => rd.isR0toR6
  | .mul _ rd _ => rd.isR0toR6
  | .muls _ rd _ _ => rd.isR0toR6
  | .push _ n _ => decide (n ≠ 0#3)
  | .pop rd n rs => decide (n ≠ 0#3) && !popIsReturn rd n rs
  | .extPush n _ _ => decide (n ≠ 0#3)
  | .extPop n _ _ => decide (n ≠ 0#3)
  | .extPrefix e =>
    match decodeExt p e 0 with
    | .ok _ => false
    | .error _ => true
  | .aluA16 op w _ _ _ => decide (op ≠ .load) || !w
  | .extA16 op w _ _ _ => decide (op ≠ .load) || !w
  | .retf | .reti | .branch _ _ _ | .dsIm6 _ | .goto _ _ | .gotoMr | .bitA16 _ _ _ _ | .aluInd _ _ _ _ _
  | .aluReg _ _ _ | .aluIm16 _ _ _ _ | .aluShift _ _ _ _ _ | .aluA6 _ _ _ | .storeInd _ _ _ _ | .storeA16 _ _ _
  | .storeA6 _ _ | .int _ _ | .firMov _ | .fraction _ | .irq _ | .secbank _ | .fiq _ | .irqnest _ | .brk | .callMr
  | .divs | .divq | .exp | .nop | .rsEqDs _ | .dsEqRs _ | .rsEqFr _ | .frEqRs _ | .call _ _ | .extReg _ _ _
  | .extIm16 _ _ _ _ | .extInd _ _ _ _ _ | .extIm6 _ _ _ | .extBpIm6 _ _ _ | .extA6 _ _ _ | .extStoreA16 _ _ _
  | .extStoreInd _ _ _ _ | .extStoreBpIm6 _ _ | .extStoreA6 _ _ => true

/-- The instructions that the version has and that words encode. -/
def Instr.wellFormed (p : Params) (i : Instr) : Bool :=
  i.shape.availableIn p.ver && i.shape.operandsOk p

end Sys2Proof
end

