-- ==== Sys2Proof/Certificates/Slice0/Obligations.lean ====
section
/-! DEFINITION. The statements for the provers. Each docstring gives the rules of spec/ the statement rests on, and the
decisions of the spec or the log entries where a clause is a choice. -/

open Sys2Proof Sys2Proof.Machine

/-- O1. For every value of the parameters and every instruction that is well formed for them, decoding its encoded
words answers that instruction, with every operand at every value the encoding admits. (R122 to R138, R410) -/
def Obligations.DecodeOfEncode : Prop :=
  ∀ (p : Params) (i : Instr), i.wellFormed p = true → decodeWords p (encode p i) = .ok i

/-- O2. Whatever three words the decoder is given, in every version: an instruction it answers is one the version has
and words encode. (R126, R144) -/
def Obligations.DecodedIsWellFormed : Prop :=
  ∀ (p : Params) (w0 w1 w2 : Word) (i : Instr), decode p w0 w1 w2 = .ok i → i.wellFormed p = true

/-- O3. With the codes of R123 for the ALU operations: for eight words written out bit by bit from the tables of the
spec, one per family of encodings, the decoder answers the instruction each stands for. The code 0000 of ADD in the
second and the last word is the spec's inference from general knowledge, which the model presumes (R123, log 10); the
prefix word is the one conflict C1 decides on. (R123, R125 to R138) -/
def Obligations.DecodeWrittenWords : Prop :=
  ∀ p : Params, p.ver = .v20 → p.extPrefix = .table → p.aluCodes = AluOpMap.table →
    decodeWords p [0b1001_010_100_100_011#16] = .ok (.loadShift .asr .r2 0#2 .r3) ∧
    decodeWords p [0b0000_010_100_001_001#16, 0x2400#16] = .ok (.addIm16 .r2 .r1 0x2400#16) ∧
    decodeWords p [0b1101_100_010_100_000#16] = .ok (.push .r4 4#3 .sp) ∧
    decodeWords p [0b0100_111_001_000101#16] = .ok (.jne true 5#6) ∧
    decodeWords p [0b1110_011_01_0_11_0_001#16] = .ok (.mulsUu .r3 6#4 .r1) ∧
    decodeWords p [0b1111_000_001_000001#16, 0x2345#16] = .ok (.call 1#6 0x2345#16) ∧
    decodeWords p [0b1111_000_101_100_101#16] = .ok .nop ∧
    decodeWords p [0b1111_111_111_000_000#16, 0b0000_010_1_00_00_1_011#16] = .ok (.extAddReg (.ext .r10) (.ext .r11))

/-- O4. The bit patterns the spec lists as unassigned under (a) to (h) decode to no instruction in any version,
whatever words follow, for every map of the ALU codes: (a) and (b) speak of the codes of no operation and, with the
default map, of 0101 and 0111; Rd = 7 in MUL and MULS of (h) falls under (c) and (g) or names another instruction.
Where the words at the program counter are no instruction, and in 1.3 the abstract decoder answers none, the step
refuses with the reason. That they are refused is the spec's decision D2, the W bit of STORE in (h) its decision D33.
(R123, R124, R144) -/
def Obligations.UnassignedWordsAreRefused : Prop :=
  (∀ (p : Params) (w w1 w2 : Word),
    ((opField w ∉ [13#4, 14#4, 15#4] ∧ (∀ op : AluOp, p.aluNum op ≠ opField w) ∧
       ¬ (rdField w = 7#3 ∧ w.extractLsb' 7 2 = 0#2)) ∨
     (p.aluOps = AluOpMap.table ∧ opField w ∈ [5#4, 7#4] ∧ ¬ (rdField w = 7#3 ∧ w.extractLsb' 7 2 = 0#2)) ∨
     (opField w ∉ [9#4, 13#4, 14#4, 15#4] ∧ modeField w = 0b010#3) ∨
     (opField w ∈ [9#4, 13#4] ∧ modeField w = 0b010#3 ∧ w.extractLsb' 3 3 = 0#3) ∨
     (opField w = 14#4 ∧ rdField w = 7#3 ∧ w.extractLsb' 7 2 ≠ 0#2) ∨
     (opField w = 14#4 ∧ rdField w ≠ 7#3 ∧ modeField w = 0b000#3 ∧ w.getLsbD 3 = true ∧ w.extractLsb' 4 2 ≠ 0#2) ∨
     (opField w = 15#4 ∧ rdField w ≠ 7#3 ∧ modeField w = 0b000#3 ∧
       ((w.extractLsb' 4 2 = 0#2 ∧ w.getLsbD 3 = false) ∨ w.extractLsb' 4 2 = 1#2)) ∨
     (opField w = 15#4 ∧ rdField w ≠ 7#3 ∧ modeField w = 0b100#3 ∧ w.extractLsb' 3 3 ≠ 1#3) ∨
     (opField w = 15#4 ∧ w.extractLsb' 4 5 = 0b10101#5) ∨
     (opField w = 15#4 ∧ w.extractLsb' 5 4 = 0b1011#4 ∧ w.extractLsb' 0 3 ∈ [6#3, 7#3]) ∨
     (opField w = 15#4 ∧ rdField w = 7#3 ∧ modeField w ∈ [0b100#3, 0b110#3, 0b111#3] ∧
       (p.ver = .v20 → w ≠ p.prefixWord)) ∨
     (opField w = 13#4 ∧ rdField w ≠ 7#3 ∧ modeField w = 0b001#3) ∨
     (opField w = 13#4 ∧ modeField w ∈ [0b101#3, 0b110#3]) ∨
     (opField w = 13#4 ∧ modeField w = 0b100#3 ∧
       ¬ (w.extractLsb' 4 2 = 1#2 ∧ w.getLsbD 3 = p.storeW)) ∨
     (opField w = 9#4 ∧ modeField w = 0b100#3 ∧ w.extractLsb' 3 3 = 3#3)) →
    ∃ why : Unassigned, decode p w w1 w2 = .error why) ∧
  ∀ (s : State) (why : Unassigned), Running s → s.sampled = none →
    let w : Word := s.cfg.firstWord (s.load (s.seqAddr 0)).1
    (∀ w1 w2 : Word, decode s.cfg w w1 w2 = .error why) → (s.cfg.ver = .v13 → Config.decode13 w = none) →
    step s = .refused (.unassigned why)

/-- O5. Where no pin holds the core and no request is taken, and the words loaded one after the other at {CS, PC}
decode to i (the first as the tables number it, ENC_10_11), the step is exec of i on the state that those loads leave
(as many as i has words), in which {CS, PC} has moved past the instruction's words, with DMACK low and no sampling
held back but after the instructions the spec lists; that state differs from the one before in nothing else. In 1.0
the address counts inside the page that CS names, in every later version over the 22-bit {CS, PC} (its wrap is the
spec's decision D7). In 1.3 a first word that is in no table goes to the abstract decoder, which sees no other word,
and the immediate or address of a two-word instruction is the second word. That DMACK is low is the model's choice
(log 57). (R28, R29, R120, R139, R459) -/
def Obligations.StepRunsDecodedInstruction : Prop :=
  ∀ s : State, Running s → s.sampled = none →
    let l0 := ({ s with dmack := false } : State).load (s.seqAddr 0)
    let l1 := l0.2.load (s.seqAddr 1)
    let l2 := l1.2.load (s.seqAddr 2)
    let w : Word := s.cfg.firstWord l0.1
    let after (n : Nat) (hold : Bool) (s1 : State) : Prop :=
      let u : State := if n = 1 then l0.2 else if n = 2 then l1.2 else l2.2
      (s.cfg.ver = .v10 → s1.status.cs = s.status.cs ∧ s1.pc.toNat = (s.pc.toNat + n) % 65536) ∧
      (s.cfg.ver ≠ .v10 → s1.nextPc.toNat = (s.nextPc.toNat + n) % 4194304) ∧
      s1 = { u with status := { s.status with cs := s1.status.cs }, pc := s1.pc, hold := hold }
    (∀ i : Instr, decode s.cfg w l1.1 l2.1 = .ok i →
      ∃ s1 : State, step s = exec i s1 ∧ after i.words (noSampleAfter s.cfg.ver i) s1) ∧
    (∀ (i : Instr13) (why : Unassigned), s.cfg.ver = .v13 → decode s.cfg w l1.1 l2.1 = .error why →
      Config.decode13 w = some i →
      ∃ s1 : State, step s = exec13 (if i.words = 1 then i else i.withSecond l1.1) s1 ∧
        after i.words (noSampleAfter13 i) s1)

/-- O6. From every state in which memory has its canonical form and the levels in service are ordered by priority,
whatever instruction, request, pin or DMA access the step serves, the next state has both. The order of the levels is
a remark of the spec on its rule of requests. (R468, R70) -/
def Obligations.StepKeepsInv : Prop :=
  ∀ s t : State, s.Inv → step s = .next t → t.Inv

/-- O7. The state after reset has memory in canonical form and no level in service. (Which RAM holds after power-on is
the model's choice, log 4; the empty SVC is the spec's decision D3.) (R47, R510) -/
def Obligations.ResetHasInv : Prop :=
  State.reset.Inv ∧ State.reset.svc = []

/-- O8. While the reset pin is active a step gives AQ, BNK, FRA, FIR, F, I, INE and the shift buffer the value 0, PRI
8, SS 0, no level in service, CS 0 and PC the word loaded from the reset vector; memory is as that load leaves it, and
the parameters stay. (CS, FR[15], the buffers of FIQ and IRQ and the empty SVC are the spec's decisions D13, D15, D16,
D3; that reset comes before SLEEP, PD, HDUMPROM and DMA is the model's choice, log 55.) State.reset has the same FR,
SS, shift buffers and SVC. (R47, R510) -/
def Obligations.ResetLeaves : Prop :=
  (∀ s : State, s.pins.reset = true → ∃ t : State, step s = .next t ∧
    t.flags = { top := false, aq := false, bnk := false, fra := false, fir := false, f := false, i := false,
                ine := false, pri := 8#4 } ∧
    t.sb = { user := 0, irq := 0, fiq := 0 } ∧ t.ss = 0 ∧ t.svc = [] ∧ t.status.cs = 0 ∧
    t.pc = (s.load (vectorAddr s.cfg resetSlot)).1 ∧ MemSame (s.load (vectorAddr s.cfg resetSlot)).2 t ∧
    t.cfg = s.cfg) ∧
  State.reset.flags = { top := false, aq := false, bnk := false, fra := false, fir := false, f := false, i := false,
                        ine := false, pri := 8#4 } ∧
  State.reset.sb = { user := 0, irq := 0, fiq := 0 } ∧ State.reset.ss = 0 ∧ State.reset.svc = []

/-- O9. In 1.2 and 1.3, without reset: with SLEEP, PD or HDUMPROM active a step leaves the whole state as it is; with
none of them and DMAQ active it raises DMACK, the DMA master makes its accesses of one turn, and nothing else changes.
That the holding pins come before DMAQ is the model's choice (log 56), as is the form of the DMA master's accesses
(log 41). (R111, R490 to R493) -/
def Obligations.HoldingPins : Prop :=
  ∀ s : State, s.cfg.ver = .v12 ∨ s.cfg.ver = .v13 → s.pins.reset = false →
    ((s.pins.sleep = true ∨ s.pins.pd = true ∨ s.pins.hdumprom = true) → step s = .next s) ∧
    (s.pins.sleep = false → s.pins.pd = false → s.pins.hdumprom = false → s.pins.dmaq = true →
      step s = .next { s.dmaPoint with dmack := true })

/-- O10. The parameters of the core and the levels of its input pins are the environment's: whatever a step does, they
are as before. No instruction, entry or DMA access changes what lies in ROM. Without reset and with no pin holding the
core, DMACK after a step is high in 1.2 and 1.3 with DMAQ active and low otherwise; that it falls in the first step
that finds DMAQ low is the model's choice (log 57). (R6, R458, R100, R111, R490) -/
def Obligations.StepKeepsParametersAndPins : Prop :=
  ∀ s t : State, step s = .next t → t.cfg = s.cfg ∧ t.pins = s.pins ∧
    (∀ a : Addr, s.cfg.backing a ≠ .ram → Memory.readWord t.mem a = Memory.readWord s.mem a) ∧
    (s.pins.reset = false → s.stalled = false →
      t.dmack = (s.pins.dmaq && (decide (s.cfg.ver = .v12) || decide (s.cfg.ver = .v13))))

/-- O11. A read of the core gives the word as the memory map says: RAM and ROM as last written, an unbacked address
its fixed word, a device its answer to the accesses it has seen (the model's form of MEMMAP, log 6). Before each read
or write of the core comes the DMA master's turn; a read then changes nothing, but that a device has seen it. A write
of a word makes RAM read as written, is seen by a device, and is ignored elsewhere, leaves every byte outside the word
as it was and keeps the canonical form of memory; the same holds of the byte store of 1.3. In 1.2 and 1.3 the DMA
master's turn makes the accesses of the first list that lies ahead, one after the other, each like one of the core; in
the other versions it does nothing (log 41). The byte keys are the model's (log 5). (R70, R96, R98, R100, R111, R113,
R490) -/
def Obligations.MemoryReadAfterWrite : Prop :=
  ∀ (s : State) (a : Addr) (v : Word) (eb : BitVec 23) (b : BitVec 8), Memory.wf s.mem = true →
    let dma : Prop := s.cfg.ver = .v12 ∨ s.cfg.ver = .v13
    (s.cfg.backing a = .ram ∨ s.cfg.backing a = .rom →
      s.readWord a = Memory.readByte s.mem (2 * a.toNat + 1) ++ Memory.readByte s.mem (2 * a.toNat)) ∧
    (∀ w : Word, s.cfg.backing a = .unbacked w → s.readWord a = w) ∧
    (s.cfg.backing a = .device → s.readWord a = Config.deviceRead s.devLog a) ∧
    s.readWord a = s.readByte (a ++ 1#1) ++ s.readByte (a ++ 0#1) ∧
    (s.load a).1 = s.dmaPoint.readWord a ∧
    (s.load a).2 = { s.dmaPoint with
      devLog := if s.cfg.backing a = .device then .read a :: s.dmaPoint.devLog else s.dmaPoint.devLog } ∧
    (s.loadByte eb).1 = s.dmaPoint.readByte eb ∧ (s.loadByte eb).2 = (s.load (BitVec.ofNat 22 (eb.toNat / 2))).2 ∧
    Stored a v s.dmaPoint (s.storeWord a v) ∧ Memory.wf (s.storeWord a v).mem = true ∧
    s.storeWord a v = { s.dmaPoint with mem := (s.storeWord a v).mem, devLog := (s.storeWord a v).devLog } ∧
    StoredByte eb b s.dmaPoint (s.storeByte eb b) ∧ Memory.wf (s.storeByte eb b).mem = true ∧
    s.storeByte eb b = { s.dmaPoint with mem := (s.storeByte eb b).mem, devLog := (s.storeByte eb b).devLog } ∧
    (¬ dma ∨ s.dma = [] → s.dmaPoint = s) ∧
    (∀ rest : List (List DmaAccess), dma → s.dma = [] :: rest → s.dmaPoint = { s with dma := rest }) ∧
    (∀ (l : List DmaAccess) (rest : List (List DmaAccess)) (x : DmaAccess), dma → s.dma = (x :: l) :: rest →
      match x with
      | .read c => s.dmaPoint = ({ s with
          dma := l :: rest
          devLog := if s.cfg.backing c = .device then .read c :: s.devLog else s.devLog } : State).dmaPoint
      | .write c w => ∃ u : State, Stored c w s u ∧ s.dmaPoint = ({ s with
          dma := l :: rest, mem := u.mem, devLog := u.devLog } : State).dmaPoint)

/-- O12. With IM6, X is Rd and Y the six bits filled with zeros; with IM16, X is Rs and Y the second word; with a
register, X is Rd and Y is Rs, any register for both: each instruction answers a next state in which Rd and the flags
are those of the rule of its operation and nothing else changes. Rd = PC leaves the flags (for CMP and TEST decision
D11), Rd = SR ends with the result (D10). That an operand PC reads nextpc is the model's choice (log 8, PRESUMED; R28
takes it from general knowledge). (R81, R82, R88, R200 to R212, R222) -/
def Obligations.RegisterAndImmediateAluForms : Prop :=
  ∀ (rd rs : Reg) (im : BitVec 6) (im16 : Word) (s : State),
    AluDone (exec (.addIm6 rd im) s) .add (.core rd) (s.reg rd) (BitVec.ofNat 16 im.toNat) s ∧
    AluDone (exec (.adcIm6 rd im) s) .adc (.core rd) (s.reg rd) (BitVec.ofNat 16 im.toNat) s ∧
    AluDone (exec (.subIm6 rd im) s) .sub (.core rd) (s.reg rd) (BitVec.ofNat 16 im.toNat) s ∧
    AluDone (exec (.sbcIm6 rd im) s) .sbc (.core rd) (s.reg rd) (BitVec.ofNat 16 im.toNat) s ∧
    AluDone (exec (.cmpIm6 rd im) s) .cmp (.core rd) (s.reg rd) (BitVec.ofNat 16 im.toNat) s ∧
    AluDone (exec (.negIm6 rd im) s) .neg (.core rd) (s.reg rd) (BitVec.ofNat 16 im.toNat) s ∧
    AluDone (exec (.xorIm6 rd im) s) .xor (.core rd) (s.reg rd) (BitVec.ofNat 16 im.toNat) s ∧
    AluDone (exec (.loadIm6 rd im) s) .load (.core rd) (s.reg rd) (BitVec.ofNat 16 im.toNat) s ∧
    AluDone (exec (.orIm6 rd im) s) .or (.core rd) (s.reg rd) (BitVec.ofNat 16 im.toNat) s ∧
    AluDone (exec (.andIm6 rd im) s) .and (.core rd) (s.reg rd) (BitVec.ofNat 16 im.toNat) s ∧
    AluDone (exec (.testIm6 rd im) s) .test (.core rd) (s.reg rd) (BitVec.ofNat 16 im.toNat) s ∧
    AluDone (exec (.addIm16 rd rs im16) s) .add (.core rd) (s.reg rs) im16 s ∧
    AluDone (exec (.adcIm16 rd rs im16) s) .adc (.core rd) (s.reg rs) im16 s ∧
    AluDone (exec (.subIm16 rd rs im16) s) .sub (.core rd) (s.reg rs) im16 s ∧
    AluDone (exec (.sbcIm16 rd rs im16) s) .sbc (.core rd) (s.reg rs) im16 s ∧
    AluDone (exec (.cmpIm16 rd rs im16) s) .cmp (.core rd) (s.reg rs) im16 s ∧
    AluDone (exec (.negIm16 rd rs im16) s) .neg (.core rd) (s.reg rs) im16 s ∧
    AluDone (exec (.xorIm16 rd rs im16) s) .xor (.core rd) (s.reg rs) im16 s ∧
    AluDone (exec (.loadIm16 rd rs im16) s) .load (.core rd) (s.reg rs) im16 s ∧
    AluDone (exec (.orIm16 rd rs im16) s) .or (.core rd) (s.reg rs) im16 s ∧
    AluDone (exec (.andIm16 rd rs im16) s) .and (.core rd) (s.reg rs) im16 s ∧
    AluDone (exec (.testIm16 rd rs im16) s) .test (.core rd) (s.reg rs) im16 s ∧
    AluDone (exec (.addReg rd rs) s) .add (.core rd) (s.reg rd) (s.reg rs) s ∧
    AluDone (exec (.adcReg rd rs) s) .adc (.core rd) (s.reg rd) (s.reg rs) s ∧
    AluDone (exec (.subReg rd rs) s) .sub (.core rd) (s.reg rd) (s.reg rs) s ∧
    AluDone (exec (.sbcReg rd rs) s) .sbc (.core rd) (s.reg rd) (s.reg rs) s ∧
    AluDone (exec (.cmpReg rd rs) s) .cmp (.core rd) (s.reg rd) (s.reg rs) s ∧
    AluDone (exec (.negReg rd rs) s) .neg (.core rd) (s.reg rd) (s.reg rs) s ∧
    AluDone (exec (.xorReg rd rs) s) .xor (.core rd) (s.reg rd) (s.reg rs) s ∧
    AluDone (exec (.loadReg rd rs) s) .load (.core rd) (s.reg rd) (s.reg rs) s ∧
    AluDone (exec (.orReg rd rs) s) .or (.core rd) (s.reg rd) (s.reg rs) s ∧
    AluDone (exec (.andReg rd rs) s) .and (.core rd) (s.reg rd) (s.reg rs) s ∧
    AluDone (exec (.testReg rd rs) s) .test (.core rd) (s.reg rd) (s.reg rs) s

/-- O13. Y is the word of page 0 at BP + IM6 counted modulo 2^16 (in 1.3 the word at {SS, BP} + IM6 counted modulo
2^22, decision D7), or the word of page 0 at A6 or A16 (W = 0); X is Rd, with [A16] it is Rs. Each instruction answers
a next state with the result and the flags of its operation, and nothing else is changed but by the load (what a load
does is a statement of its own). That an operand PC reads nextpc is the model's choice (log 8, PRESUMED; R28 takes it
from general knowledge). (R83 to R85, R200 to R212, R222) -/
def Obligations.MemoryReadAluForms : Prop :=
  ∀ (rd rs : Reg) (im : BitVec 6) (a : Word) (s : State),
    AluLoadDone (exec (.addBpIm6 rd im) s) .add (.core rd) (s.reg rd) (specBpEa s im) s ∧
    AluLoadDone (exec (.adcBpIm6 rd im) s) .adc (.core rd) (s.reg rd) (specBpEa s im) s ∧
    AluLoadDone (exec (.subBpIm6 rd im) s) .sub (.core rd) (s.reg rd) (specBpEa s im) s ∧
    AluLoadDone (exec (.sbcBpIm6 rd im) s) .sbc (.core rd) (s.reg rd) (specBpEa s im) s ∧
    AluLoadDone (exec (.cmpBpIm6 rd im) s) .cmp (.core rd) (s.reg rd) (specBpEa s im) s ∧
    AluLoadDone (exec (.negBpIm6 rd im) s) .neg (.core rd) (s.reg rd) (specBpEa s im) s ∧
    AluLoadDone (exec (.xorBpIm6 rd im) s) .xor (.core rd) (s.reg rd) (specBpEa s im) s ∧
    AluLoadDone (exec (.loadBpIm6 rd im) s) .load (.core rd) (s.reg rd) (specBpEa s im) s ∧
    AluLoadDone (exec (.orBpIm6 rd im) s) .or (.core rd) (s.reg rd) (specBpEa s im) s ∧
    AluLoadDone (exec (.andBpIm6 rd im) s) .and (.core rd) (s.reg rd) (specBpEa s im) s ∧
    AluLoadDone (exec (.testBpIm6 rd im) s) .test (.core rd) (s.reg rd) (specBpEa s im) s ∧
    AluLoadDone (exec (.addA6 rd im) s) .add (.core rd) (s.reg rd) (BitVec.ofNat 22 im.toNat) s ∧
    AluLoadDone (exec (.adcA6 rd im) s) .adc (.core rd) (s.reg rd) (BitVec.ofNat 22 im.toNat) s ∧
    AluLoadDone (exec (.subA6 rd im) s) .sub (.core rd) (s.reg rd) (BitVec.ofNat 22 im.toNat) s ∧
    AluLoadDone (exec (.sbcA6 rd im) s) .sbc (.core rd) (s.reg rd) (BitVec.ofNat 22 im.toNat) s ∧
    AluLoadDone (exec (.cmpA6 rd im) s) .cmp (.core rd) (s.reg rd) (BitVec.ofNat 22 im.toNat) s ∧
    AluLoadDone (exec (.negA6 rd im) s) .neg (.core rd) (s.reg rd) (BitVec.ofNat 22 im.toNat) s ∧
    AluLoadDone (exec (.xorA6 rd im) s) .xor (.core rd) (s.reg rd) (BitVec.ofNat 22 im.toNat) s ∧
    AluLoadDone (exec (.loadA6 rd im) s) .load (.core rd) (s.reg rd) (BitVec.ofNat 22 im.toNat) s ∧
    AluLoadDone (exec (.orA6 rd im) s) .or (.core rd) (s.reg rd) (BitVec.ofNat 22 im.toNat) s ∧
    AluLoadDone (exec (.andA6 rd im) s) .and (.core rd) (s.reg rd) (BitVec.ofNat 22 im.toNat) s ∧
    AluLoadDone (exec (.testA6 rd im) s) .test (.core rd) (s.reg rd) (BitVec.ofNat 22 im.toNat) s ∧
    AluLoadDone (exec (.addA16 false rd rs a) s) .add (.core rd) (s.reg rs) (mkAddr 0 a) s ∧
    AluLoadDone (exec (.adcA16 false rd rs a) s) .adc (.core rd) (s.reg rs) (mkAddr 0 a) s ∧
    AluLoadDone (exec (.subA16 false rd rs a) s) .sub (.core rd) (s.reg rs) (mkAddr 0 a) s ∧
    AluLoadDone (exec (.sbcA16 false rd rs a) s) .sbc (.core rd) (s.reg rs) (mkAddr 0 a) s ∧
    AluLoadDone (exec (.cmpA16 false rd rs a) s) .cmp (.core rd) (s.reg rs) (mkAddr 0 a) s ∧
    AluLoadDone (exec (.negA16 false rd rs a) s) .neg (.core rd) (s.reg rs) (mkAddr 0 a) s ∧
    AluLoadDone (exec (.xorA16 false rd rs a) s) .xor (.core rd) (s.reg rs) (mkAddr 0 a) s ∧
    AluLoadDone (exec (.orA16 false rd rs a) s) .or (.core rd) (s.reg rs) (mkAddr 0 a) s ∧
    AluLoadDone (exec (.andA16 false rd rs a) s) .and (.core rd) (s.reg rs) (mkAddr 0 a) s ∧
    AluLoadDone (exec (.testA16 false rd rs a) s) .test (.core rd) (s.reg rs) (mkAddr 0 a) s ∧
    AluLoadDone (exec (.loadA16 rd rs a) s) .load (.core rd) (s.reg rs) (mkAddr 0 a) s

/-- O14. W = 1: the result of Rd and Rs (Ra and Rb, any of R0 to R15) goes to the word of page 0 at A16 (CMP and TEST
store nothing), the flags of the operation are always written, no register is written, and no byte outside that word
changes. In 2.0 a form that stores stops where the word is one of the three after it (decision D5; log 27). NEG
negates Rs (conflict C18). That an operand PC reads nextpc is the model's choice (log 8, PRESUMED; R28 takes it from
general knowledge). (R85, R219, R517) -/
def Obligations.Direct16WriteAluForms : Prop :=
  ∀ (rd rs : Reg) (ra rb : GReg) (a : Word) (s : State), Memory.wf s.mem = true →
    AluStoreDone (exec (.addA16 true rd rs a) s) .add (mkAddr 0 a) (s.reg rd) (s.reg rs) s ∧
    AluStoreDone (exec (.adcA16 true rd rs a) s) .adc (mkAddr 0 a) (s.reg rd) (s.reg rs) s ∧
    AluStoreDone (exec (.subA16 true rd rs a) s) .sub (mkAddr 0 a) (s.reg rd) (s.reg rs) s ∧
    AluStoreDone (exec (.sbcA16 true rd rs a) s) .sbc (mkAddr 0 a) (s.reg rd) (s.reg rs) s ∧
    AluStoreDone (exec (.cmpA16 true rd rs a) s) .cmp (mkAddr 0 a) (s.reg rd) (s.reg rs) s ∧
    AluStoreDone (exec (.negA16 true rd rs a) s) .neg (mkAddr 0 a) (s.reg rd) (s.reg rs) s ∧
    AluStoreDone (exec (.xorA16 true rd rs a) s) .xor (mkAddr 0 a) (s.reg rd) (s.reg rs) s ∧
    AluStoreDone (exec (.orA16 true rd rs a) s) .or (mkAddr 0 a) (s.reg rd) (s.reg rs) s ∧
    AluStoreDone (exec (.andA16 true rd rs a) s) .and (mkAddr 0 a) (s.reg rd) (s.reg rs) s ∧
    AluStoreDone (exec (.testA16 true rd rs a) s) .test (mkAddr 0 a) (s.reg rd) (s.reg rs) s ∧
    AluStoreDone (exec (.extAddA16 true ra rb a) s) .add (mkAddr 0 a) (s.greg ra) (s.greg rb) s ∧
    AluStoreDone (exec (.extAdcA16 true ra rb a) s) .adc (mkAddr 0 a) (s.greg ra) (s.greg rb) s ∧
    AluStoreDone (exec (.extSubA16 true ra rb a) s) .sub (mkAddr 0 a) (s.greg ra) (s.greg rb) s ∧
    AluStoreDone (exec (.extSbcA16 true ra rb a) s) .sbc (mkAddr 0 a) (s.greg ra) (s.greg rb) s ∧
    AluStoreDone (exec (.extCmpA16 true ra rb a) s) .cmp (mkAddr 0 a) (s.greg ra) (s.greg rb) s ∧
    AluStoreDone (exec (.extNegA16 true ra rb a) s) .neg (mkAddr 0 a) (s.greg ra) (s.greg rb) s ∧
    AluStoreDone (exec (.extXorA16 true ra rb a) s) .xor (mkAddr 0 a) (s.greg ra) (s.greg rb) s ∧
    AluStoreDone (exec (.extOrA16 true ra rb a) s) .or (mkAddr 0 a) (s.greg ra) (s.greg rb) s ∧
    AluStoreDone (exec (.extAndA16 true ra rb a) s) .and (mkAddr 0 a) (s.greg ra) (s.greg rb) s ∧
    AluStoreDone (exec (.extTestA16 true ra rb a) s) .test (mkAddr 0 a) (s.greg ra) (s.greg rb) s

/-- O15. X is Rd, Y the word at the pointer Rs (extended: Rx, Ry), in page DS with D: and page 0 without; the pointer
steps as @ says, before the access for [++Rs] and after it for the others, and with D: from 1.1 on a carry or borrow
goes into DS; the result and the flags are those of the operation, and nothing else changes but by the load. (The
operand pairs the spec refuses have a statement of their own.) That an operand PC reads nextpc is the model's choice
(log 8, PRESUMED; R28 takes it from general knowledge). (R86, R87, R222) -/
def Obligations.IndirectAluForms : Prop :=
  ∀ (rd rs : Reg) (rx ry : XReg) (d : Bool) (m : PtrMode) (s : State),
    (PointerFree m (.core rd) (.core rs) →
      IndDone (exec (.addInd rd d m rs) s) .add (.core rd) d m (.core rs) s ∧
      IndDone (exec (.adcInd rd d m rs) s) .adc (.core rd) d m (.core rs) s ∧
      IndDone (exec (.subInd rd d m rs) s) .sub (.core rd) d m (.core rs) s ∧
      IndDone (exec (.sbcInd rd d m rs) s) .sbc (.core rd) d m (.core rs) s ∧
      IndDone (exec (.cmpInd rd d m rs) s) .cmp (.core rd) d m (.core rs) s ∧
      IndDone (exec (.negInd rd d m rs) s) .neg (.core rd) d m (.core rs) s ∧
      IndDone (exec (.xorInd rd d m rs) s) .xor (.core rd) d m (.core rs) s ∧
      IndDone (exec (.loadInd rd d m rs) s) .load (.core rd) d m (.core rs) s ∧
      IndDone (exec (.orInd rd d m rs) s) .or (.core rd) d m (.core rs) s ∧
      IndDone (exec (.andInd rd d m rs) s) .and (.core rd) d m (.core rs) s ∧
      IndDone (exec (.testInd rd d m rs) s) .test (.core rd) d m (.core rs) s) ∧
    (PointerFree m (.ext rx) (.ext ry) →
      IndDone (exec (.extAddInd rx d m ry) s) .add (.ext rx) d m (.ext ry) s ∧
      IndDone (exec (.extAdcInd rx d m ry) s) .adc (.ext rx) d m (.ext ry) s ∧
      IndDone (exec (.extSubInd rx d m ry) s) .sub (.ext rx) d m (.ext ry) s ∧
      IndDone (exec (.extSbcInd rx d m ry) s) .sbc (.ext rx) d m (.ext ry) s ∧
      IndDone (exec (.extCmpInd rx d m ry) s) .cmp (.ext rx) d m (.ext ry) s ∧
      IndDone (exec (.extNegInd rx d m ry) s) .neg (.ext rx) d m (.ext ry) s ∧
      IndDone (exec (.extXorInd rx d m ry) s) .xor (.ext rx) d m (.ext ry) s ∧
      IndDone (exec (.extLoadInd rx d m ry) s) .load (.ext rx) d m (.ext ry) s ∧
      IndDone (exec (.extOrInd rx d m ry) s) .or (.ext rx) d m (.ext ry) s ∧
      IndDone (exec (.extAndInd rx d m ry) s) .and (.ext rx) d m (.ext ry) s ∧
      IndDone (exec (.extTestInd rx d m ry) s) .test (.ext rx) d m (.ext ry) s)

/-- O16. Y is Rs shifted by 1 to 4 places through the shift buffer in use, which takes the bits shifted out; ROL and
ROR take in the buffer's bits; the result and the flags are those of the operation on Rd and Y, no bit shifted out
reaches C, and nothing else changes. Only ASR survives in the source; the other four are the spec's reconstruction
(log 12). That an operand PC reads nextpc is the model's choice (log 8, PRESUMED; R28 takes it from general
knowledge). That the shift buffer takes its bits with Rd = PC too is the model's reading of rules that except no Rd
(log 60). (R88, R213 to R218, R222) -/
def Obligations.ShiftedRegisterAluForms : Prop :=
  ∀ (k : Shift4) (rd rs : Reg) (nn : BitVec 2) (s : State),
    ShiftDone (exec (.addShift k rd nn rs) s) .add k rd nn rs s ∧
    ShiftDone (exec (.adcShift k rd nn rs) s) .adc k rd nn rs s ∧
    ShiftDone (exec (.subShift k rd nn rs) s) .sub k rd nn rs s ∧
    ShiftDone (exec (.sbcShift k rd nn rs) s) .sbc k rd nn rs s ∧
    ShiftDone (exec (.cmpShift k rd nn rs) s) .cmp k rd nn rs s ∧
    ShiftDone (exec (.negShift k rd nn rs) s) .neg k rd nn rs s ∧
    ShiftDone (exec (.xorShift k rd nn rs) s) .xor k rd nn rs s ∧
    ShiftDone (exec (.loadShift k rd nn rs) s) .load k rd nn rs s ∧
    ShiftDone (exec (.orShift k rd nn rs) s) .or k rd nn rs s ∧
    ShiftDone (exec (.andShift k rd nn rs) s) .and k rd nn rs s ∧
    ShiftDone (exec (.testShift k rd nn rs) s) .test k rd nn rs s

/-- O17. 7FFF + 7FFF gives FFFE with S = 0, C = 0 and N = 1, whatever the flags were. (R51) -/
def Obligations.FlagsExample : Prop :=
  ∀ s : State, s.regs.bp = 0x7FFF#16 → ∃ t : State, exec (.addReg .bp .bp) s = .next t ∧
    t.reg .bp = 0xFFFE#16 ∧ t.status.s = false ∧ t.status.c = false ∧ t.status.n = true

/-- O18. After ADD, ADC, SUB, SBC and CMP of two registers the exact signed result lies outside -32768 to 32767 if and
only if N differs from S, and JVS is then taken and JVC not. (R25, R349) -/
def Obligations.OverflowIffNDiffersFromS : Prop :=
  ∀ (p : Params) (rd rs : Reg) (s : State) (back : Bool) (im : BitVec 6), rd ≠ .pc → rd ≠ .sr →
    (∃ w : Word, encode p (.jvs back im) = [w] ∧ w.extractLsb' 12 4 = 0b1101#4) ∧
    ∀ (i : Instr) (exact : Int), (i, exact) ∈
        [(.addReg rd rs, (s.reg rd).toInt + (s.reg rs).toInt),
         (.adcReg rd rs, (s.reg rd).toInt + (s.reg rs).toInt + s.status.c.toNat),
         (.subReg rd rs, (s.reg rd).toInt - (s.reg rs).toInt),
         (.sbcReg rd rs, (s.reg rd).toInt - (s.reg rs).toInt - 1 + s.status.c.toNat),
         (.cmpReg rd rs, (s.reg rd).toInt - (s.reg rs).toInt)] →
      ∃ t : State, exec i s = .next t ∧
        (t.status.n ≠ t.status.s ↔ exact < -32768 ∨ 32767 < exact) ∧
        (t.status.n ≠ t.status.s → exec (.jvs back im) t = exec (.jmp back im) t ∧ exec (.jvc back im) t = .next t) ∧
        (t.status.n = t.status.s → exec (.jvs back im) t = .next t ∧ exec (.jvc back im) t = exec (.jmp back im) t)

/-- O19. Ext Register: X is Ra, Y is Rb; Ext IMM16: X is Rb, Y the word that follows, destination Ra; Ext IM6,
Base+Disp6 and A6: X is Rx, Y the six bits filled with zeros, the word of page 0 at BP + IM6, the word at A6; Ext A16
with W = 0: X is Rb, Y the word of page 0 at A16, destination Ra. Ra and Rb are any of R0 to R15. Each instruction
answers a next state with the result and the flags the base operation has, and nothing else is changed but by the load
of the memory forms. That an operand PC reads nextpc is the model's choice (log 8, PRESUMED; R28 takes it from general
knowledge). The wrap of BP + IM6 (modulo 2^16 in page 0, in 1.3 {SS, BP} + IM6 modulo 2^22) is the spec's decision D7
(log 43). (R411, R412, R414, R415, R420 to R429) -/
def Obligations.ExtendedAluForms : Prop :=
  ∀ (ra rb : GReg) (rx : XReg) (im : BitVec 6) (a : Word) (s : State), s.cfg.ver = .v20 →
    AluDone (exec (.extAddReg ra rb) s) .add ra (s.greg ra) (s.greg rb) s ∧
    AluDone (exec (.extAdcReg ra rb) s) .adc ra (s.greg ra) (s.greg rb) s ∧
    AluDone (exec (.extSubReg ra rb) s) .sub ra (s.greg ra) (s.greg rb) s ∧
    AluDone (exec (.extSbcReg ra rb) s) .sbc ra (s.greg ra) (s.greg rb) s ∧
    AluDone (exec (.extCmpReg ra rb) s) .cmp ra (s.greg ra) (s.greg rb) s ∧
    AluDone (exec (.extNegReg ra rb) s) .neg ra (s.greg ra) (s.greg rb) s ∧
    AluDone (exec (.extXorReg ra rb) s) .xor ra (s.greg ra) (s.greg rb) s ∧
    AluDone (exec (.extLoadReg ra rb) s) .load ra (s.greg ra) (s.greg rb) s ∧
    AluDone (exec (.extOrReg ra rb) s) .or ra (s.greg ra) (s.greg rb) s ∧
    AluDone (exec (.extAndReg ra rb) s) .and ra (s.greg ra) (s.greg rb) s ∧
    AluDone (exec (.extTestReg ra rb) s) .test ra (s.greg ra) (s.greg rb) s ∧
    AluDone (exec (.extAddIm16 ra rb a) s) .add ra (s.greg rb) a s ∧
    AluDone (exec (.extAdcIm16 ra rb a) s) .adc ra (s.greg rb) a s ∧
    AluDone (exec (.extSubIm16 ra rb a) s) .sub ra (s.greg rb) a s ∧
    AluDone (exec (.extSbcIm16 ra rb a) s) .sbc ra (s.greg rb) a s ∧
    AluDone (exec (.extCmpIm16 ra rb a) s) .cmp ra (s.greg rb) a s ∧
    AluDone (exec (.extNegIm16 ra rb a) s) .neg ra (s.greg rb) a s ∧
    AluDone (exec (.extXorIm16 ra rb a) s) .xor ra (s.greg rb) a s ∧
    AluDone (exec (.extLoadIm16 ra rb a) s) .load ra (s.greg rb) a s ∧
    AluDone (exec (.extOrIm16 ra rb a) s) .or ra (s.greg rb) a s ∧
    AluDone (exec (.extAndIm16 ra rb a) s) .and ra (s.greg rb) a s ∧
    AluDone (exec (.extTestIm16 ra rb a) s) .test ra (s.greg rb) a s ∧
    AluDone (exec (.extAddIm6 rx im) s) .add (.ext rx) (s.xreg rx) (BitVec.ofNat 16 im.toNat) s ∧
    AluDone (exec (.extAdcIm6 rx im) s) .adc (.ext rx) (s.xreg rx) (BitVec.ofNat 16 im.toNat) s ∧
    AluDone (exec (.extSubIm6 rx im) s) .sub (.ext rx) (s.xreg rx) (BitVec.ofNat 16 im.toNat) s ∧
    AluDone (exec (.extSbcIm6 rx im) s) .sbc (.ext rx) (s.xreg rx) (BitVec.ofNat 16 im.toNat) s ∧
    AluDone (exec (.extCmpIm6 rx im) s) .cmp (.ext rx) (s.xreg rx) (BitVec.ofNat 16 im.toNat) s ∧
    AluDone (exec (.extNegIm6 rx im) s) .neg (.ext rx) (s.xreg rx) (BitVec.ofNat 16 im.toNat) s ∧
    AluDone (exec (.extXorIm6 rx im) s) .xor (.ext rx) (s.xreg rx) (BitVec.ofNat 16 im.toNat) s ∧
    AluDone (exec (.extLoadIm6 rx im) s) .load (.ext rx) (s.xreg rx) (BitVec.ofNat 16 im.toNat) s ∧
    AluDone (exec (.extOrIm6 rx im) s) .or (.ext rx) (s.xreg rx) (BitVec.ofNat 16 im.toNat) s ∧
    AluDone (exec (.extAndIm6 rx im) s) .and (.ext rx) (s.xreg rx) (BitVec.ofNat 16 im.toNat) s ∧
    AluDone (exec (.extTestIm6 rx im) s) .test (.ext rx) (s.xreg rx) (BitVec.ofNat 16 im.toNat) s ∧
    AluLoadDone (exec (.extAddBpIm6 rx im) s) .add (.ext rx) (s.xreg rx) (mkAddr 0 (s.reg .bp + BitVec.ofNat 16 im.toNat)) s ∧
    AluLoadDone (exec (.extAdcBpIm6 rx im) s) .adc (.ext rx) (s.xreg rx) (mkAddr 0 (s.reg .bp + BitVec.ofNat 16 im.toNat)) s ∧
    AluLoadDone (exec (.extSubBpIm6 rx im) s) .sub (.ext rx) (s.xreg rx) (mkAddr 0 (s.reg .bp + BitVec.ofNat 16 im.toNat)) s ∧
    AluLoadDone (exec (.extSbcBpIm6 rx im) s) .sbc (.ext rx) (s.xreg rx) (mkAddr 0 (s.reg .bp + BitVec.ofNat 16 im.toNat)) s ∧
    AluLoadDone (exec (.extCmpBpIm6 rx im) s) .cmp (.ext rx) (s.xreg rx) (mkAddr 0 (s.reg .bp + BitVec.ofNat 16 im.toNat)) s ∧
    AluLoadDone (exec (.extNegBpIm6 rx im) s) .neg (.ext rx) (s.xreg rx) (mkAddr 0 (s.reg .bp + BitVec.ofNat 16 im.toNat)) s ∧
    AluLoadDone (exec (.extXorBpIm6 rx im) s) .xor (.ext rx) (s.xreg rx) (mkAddr 0 (s.reg .bp + BitVec.ofNat 16 im.toNat)) s ∧
    AluLoadDone (exec (.extLoadBpIm6 rx im) s) .load (.ext rx) (s.xreg rx) (mkAddr 0 (s.reg .bp + BitVec.ofNat 16 im.toNat)) s ∧
    AluLoadDone (exec (.extOrBpIm6 rx im) s) .or (.ext rx) (s.xreg rx) (mkAddr 0 (s.reg .bp + BitVec.ofNat 16 im.toNat)) s ∧
    AluLoadDone (exec (.extAndBpIm6 rx im) s) .and (.ext rx) (s.xreg rx) (mkAddr 0 (s.reg .bp + BitVec.ofNat 16 im.toNat)) s ∧
    AluLoadDone (exec (.extTestBpIm6 rx im) s) .test (.ext rx) (s.xreg rx) (mkAddr 0 (s.reg .bp + BitVec.ofNat 16 im.toNat)) s ∧
    AluLoadDone (exec (.extAddA6 rx im) s) .add (.ext rx) (s.xreg rx) (BitVec.ofNat 22 im.toNat) s ∧
    AluLoadDone (exec (.extAdcA6 rx im) s) .adc (.ext rx) (s.xreg rx) (BitVec.ofNat 22 im.toNat) s ∧
    AluLoadDone (exec (.extSubA6 rx im) s) .sub (.ext rx) (s.xreg rx) (BitVec.ofNat 22 im.toNat) s ∧
    AluLoadDone (exec (.extSbcA6 rx im) s) .sbc (.ext rx) (s.xreg rx) (BitVec.ofNat 22 im.toNat) s ∧
    AluLoadDone (exec (.extCmpA6 rx im) s) .cmp (.ext rx) (s.xreg rx) (BitVec.ofNat 22 im.toNat) s ∧
    AluLoadDone (exec (.extNegA6 rx im) s) .neg (.ext rx) (s.xreg rx) (BitVec.ofNat 22 im.toNat) s ∧
    AluLoadDone (exec (.extXorA6 rx im) s) .xor (.ext rx) (s.xreg rx) (BitVec.ofNat 22 im.toNat) s ∧
    AluLoadDone (exec (.extLoadA6 rx im) s) .load (.ext rx) (s.xreg rx) (BitVec.ofNat 22 im.toNat) s ∧
    AluLoadDone (exec (.extOrA6 rx im) s) .or (.ext rx) (s.xreg rx) (BitVec.ofNat 22 im.toNat) s ∧
    AluLoadDone (exec (.extAndA6 rx im) s) .and (.ext rx) (s.xreg rx) (BitVec.ofNat 22 im.toNat) s ∧
    AluLoadDone (exec (.extTestA6 rx im) s) .test (.ext rx) (s.xreg rx) (BitVec.ofNat 22 im.toNat) s ∧
    AluLoadDone (exec (.extAddA16 false ra rb a) s) .add ra (s.greg rb) (mkAddr 0 a) s ∧
    AluLoadDone (exec (.extAdcA16 false ra rb a) s) .adc ra (s.greg rb) (mkAddr 0 a) s ∧
    AluLoadDone (exec (.extSubA16 false ra rb a) s) .sub ra (s.greg rb) (mkAddr 0 a) s ∧
    AluLoadDone (exec (.extSbcA16 false ra rb a) s) .sbc ra (s.greg rb) (mkAddr 0 a) s ∧
    AluLoadDone (exec (.extCmpA16 false ra rb a) s) .cmp ra (s.greg rb) (mkAddr 0 a) s ∧
    AluLoadDone (exec (.extNegA16 false ra rb a) s) .neg ra (s.greg rb) (mkAddr 0 a) s ∧
    AluLoadDone (exec (.extXorA16 false ra rb a) s) .xor ra (s.greg rb) (mkAddr 0 a) s ∧
    AluLoadDone (exec (.extOrA16 false ra rb a) s) .or ra (s.greg rb) (mkAddr 0 a) s ∧
    AluLoadDone (exec (.extAndA16 false ra rb a) s) .and ra (s.greg rb) (mkAddr 0 a) s ∧
    AluLoadDone (exec (.extTestA16 false ra rb a) s) .test ra (s.greg rb) (mkAddr 0 a) s ∧
    AluLoadDone (exec (.extLoadA16 ra rb a) s) .load ra (s.greg rb) (mkAddr 0 a) s

/-- O20. A pointer update on the register of the other operand, or on SR or PC, stops with pointerConflict, for LOAD,
STORE and every ALU operation, base and extended (decision D17). A PUSH or POP set, base or extended, that is empty or
leaves the register file stops with pushPopSet, and one that holds the pointer register with pointerInSet (decision
D8; the first register of ext POP is decision D24). The extension prefix before a word of no extended row stops with
extUnassigned (decision D2). (R87, R172, R173, R410, R413, R417, R418) -/
def Obligations.RefusedOperandsStop : Prop :=
  ∀ (rd rs : Reg) (rx : XReg) (rb : GReg) (fld : BitVec 3) (d : Bool) (m : PtrMode) (n : BitVec 3) (e : Word) (s : State),
    (m ≠ .keep → (rs = rd ∨ rs = .sr ∨ rs = .pc) →
      ∀ i : Instr, i ∈ [.addInd rd d m rs, .adcInd rd d m rs, .subInd rd d m rs, .sbcInd rd d m rs, .cmpInd rd d m rs, .negInd rd d m rs, .xorInd rd d m rs, .loadInd rd d m rs, .orInd rd d m rs, .andInd rd d m rs, .testInd rd d m rs,
          .storeInd rd d m rs] →
        exec i s = .refused .pointerConflict) ∧
    (m ≠ .keep →
      ∀ i : Instr, i ∈ [.extAddInd rx d m rx, .extAdcInd rx d m rx, .extSubInd rx d m rx, .extSbcInd rx d m rx, .extCmpInd rx d m rx, .extNegInd rx d m rx, .extXorInd rx d m rx, .extLoadInd rx d m rx, .extOrInd rx d m rx, .extAndInd rx d m rx, .extTestInd rx d m rx,
          .extStoreInd rx d m rx] →
        exec i s = .refused .pointerConflict) ∧
    ((n = 0#3 ∨ rd.num.toNat + 1 < n.toNat) → exec (.push rd n rs) s = .refused .pushPopSet) ∧
    ((n = 0#3 ∨ 7 < rd.num.toNat + n.toNat) → exec (.pop rd n rs) s = .refused .pushPopSet) ∧
    (∀ k : Nat, n.toNat ≤ rd.num.toNat + 1 → k < n.toNat → regPlus rd (-k) = .core rs →
      exec (.push rd n rs) s = .refused .pointerInSet) ∧
    (∀ k : Nat, rd.num.toNat + n.toNat ≤ 7 → 1 ≤ k → k ≤ n.toNat → regPlus rd k = .core rs →
      exec (.pop rd n rs) s = .refused .pointerInSet) ∧
    ((n = 0#3 ∨ rx.num.toNat + 1 < n.toNat) → exec (.extPush n rx rb) s = .refused .pushPopSet) ∧
    (∀ k : Nat, n.toNat ≤ rx.num.toNat + 1 → k < n.toNat → rb = xregAt (rx.num.toNat - k) →
      exec (.extPush n rx rb) s = .refused .pointerInSet) ∧
    (let first : Nat := match s.cfg.extPop with
        | .minusOne => (fld.toNat + 1) % 8
        | .direct => fld.toNat
      ((n = 0#3 ∨ 8 < first + n.toNat) → exec (.extPop n fld rb) s = .refused .pushPopSet) ∧
      (∀ k : Nat, first + n.toNat ≤ 8 → k < n.toNat → rb = xregAt (first + k) →
        exec (.extPop n fld rb) s = .refused .pointerInSet)) ∧
    exec (.extPrefix e) s = .refused .extUnassigned

/-- O21. The word at the address of the form becomes the register's value, any register, SR and PC among them; no
flag, no register and no byte outside that word changes. (A word of RAM reads as stored, a device has seen it, other
addresses ignore it; DMA has its turn before the store.) In 2.0 a store to one of the three words after the
instruction stops with storeAhead (decision D5; log 27). That PC is stored as nextpc is the model's choice (log 8,
PRESUMED; R28 takes it from general knowledge). The wrap of BP + IM6 (modulo 2^16 in page 0, in 1.3 {SS, BP} + IM6
modulo 2^22) is the spec's decision D7 (log 43). (R171, R416, R517) -/
def Obligations.StoreForms : Prop :=
  ∀ (rd rs : Reg) (im : BitVec 6) (a : Word) (ra rb : GReg) (rx : XReg) (s : State), Memory.wf s.mem = true →
    StoreDone (exec (.storeBpIm6 rd im) s) (specBpEa s im) (s.reg rd) s ∧
    StoreDone (exec (.storeA6 rd im) s) (BitVec.ofNat 22 im.toNat) (s.reg rd) s ∧
    StoreDone (exec (.storeA16 rd rs a) s) (mkAddr 0 a) (s.reg rd) s ∧
    StoreDone (exec (.extStoreBpIm6 rx im) s) (specBpEa s im) (s.xreg rx) s ∧
    StoreDone (exec (.extStoreA6 rx im) s) (BitVec.ofNat 22 im.toNat) (s.xreg rx) s ∧
    StoreDone (exec (.extStoreA16 ra rb a) s) (mkAddr 0 a) (s.greg ra) s

/-- O22. The word at the pointer becomes the register's value, the pointer steps before the store for [++Rs] and after
it for the others with the carry of a D: pointer in DS, and no flag, no other register and no byte outside that word
changes. (A word of RAM reads as stored, a device has seen it, other addresses ignore it; DMA has its turn before the
store.) In 2.0 a store to one of the three words after the instruction stops with storeAhead (decision D5; log 27).
That PC is stored as nextpc is the model's choice (log 8, PRESUMED; R28 takes it from general knowledge). (R171, R87,
R413, R416, R517) -/
def Obligations.IndirectStoreForms : Prop :=
  ∀ (rd rs : Reg) (rx ry : XReg) (d : Bool) (m : PtrMode) (s : State), Memory.wf s.mem = true →
    (PointerFree m (.core rd) (.core rs) →
      StoreIndDone (exec (.storeInd rd d m rs) s) (.core rd) d m (.core rs) s) ∧
    (PointerFree m (.ext rx) (.ext ry) →
      StoreIndDone (exec (.extStoreInd rx d m ry) s) (.ext rx) d m (.ext ry) s)

/-- O23. PUSH of N registers, the highest Rd, through Rs stores Rd at the pointer and each lower register one word
further down, and leaves the pointer N lower (in 1.3 {SS, Rs} as a whole); PC in the set stores nextpc, SR all 16
bits; no other register, no flag, no other byte changes. The descending order is not printed for PUSH alone (log 11).
What a pushed word reads as is said of RAM that DMA leaves alone. In 2.0 a store to one of the three words after the
instruction stops with storeAhead (decision D5; log 27). That PC in the set stores nextpc is the model's choice (log
8, PRESUMED; R28 takes it from general knowledge). That SS is the page of every pointer in 1.3 is the spec's decision
D8 (log 23), the wrap of the pointer its decision D7 (log 43). (R172, R174, R417, R517) -/
def Obligations.PushStoresDownwards : Prop :=
  ∀ (rd rs : Reg) (rx : XReg) (rb : GReg) (n : BitVec 3) (s : State), Memory.wf s.mem = true → n ≠ 0#3 →
    (n.toNat ≤ rd.num.toNat + 1 → (∀ i : Nat, i < n.toNat → GReg.core rs ≠ regPlus rd (-i)) →
      PushDone (exec (.push rd n rs) s) (.core rs) n.toNat (fun i => regPlus rd (-i)) s) ∧
    (n.toNat ≤ rx.num.toNat + 1 → (∀ i : Nat, i < n.toNat → rb ≠ xregAt (rx.num.toNat - i)) →
      PushDone (exec (.extPush n rx rb) s) rb n.toNat (fun i => xregAt (rx.num.toNat - i)) s)

/-- O24. POP of the N registers above Rd through Rs completes; it loads them in ascending order from the words above
the pointer and leaves the pointer N higher; SR in the set is loaded whole, PC last; no other register and no byte of
memory changes. In 1.0 and 1.1 N and Z are those of the last value loaded when SR and PC are not in the set; Through
another pointer than SR, PC alone, and from 1.2 on every set without SR, leaves all of SR, so that PC is a jump in the
page of nextpc. PC alone through the pointer SR goes on in the page of nextpc: SR ends one higher but for its CS
field, which is as before. (With SR as the pointer of another set in 1.0 and 1.1 only the completion is stated; SR as
a pointer is log 47.) (What a register takes is said of words that no device and no DMA access changes meanwhile.)
That SS is the page of every pointer in 1.3 is the spec's decision D8 (log 23), the wrap of the pointer its decision
D7 (log 43). (R173, R174) -/
def Obligations.PopLoadsUpwards : Prop :=
  ∀ (rd rs : Reg) (n : BitVec 3) (s : State), n ≠ 0#3 → rd.num.toNat + n.toNat ≤ 7 →
    (∀ i : Nat, 1 ≤ i → i ≤ n.toNat → GReg.core rs ≠ regPlus rd i) →
    ∃ t : State, exec (.pop rd n rs) s = .next t ∧
      (rs ≠ .sr ∨ (rd ≠ .sr ∧ s.cfg.ver.is12Plus = true) →
        PopEffect (.core rs) n.toNat (fun i => regPlus rd i) s t ∧
        (rs ≠ .sr → rd.num.toNat + n.toNat < 6 →
          if s.cfg.ver.is12Plus then t.status = s.status
          else Steady s (stackUp s (.core rs) n.toNat) → t.status = { s.status with
            n := (s.readWord (stackUp s (.core rs) n.toNat)).getLsbD 15
            z := decide (s.readWord (stackUp s (.core rs) n.toNat) = 0) })) ∧
      (rs ≠ .sr → rd = .sr → t.status = s.status) ∧
      (rs = .sr → rd = .sr →
        let up : Addr := stackUp s (.core .sr) 1
        (Steady s up → t.pc = s.readWord up) ∧
        t.status = { srFieldsOf s.cfg (offsetOf up) with cs := s.status.cs } ∧
        t.ss = (if s.cfg.ver = .v13 then pageOf up else s.ss) ∧ t.regs = s.regs ∧ MemSameBarDma s t ∧ CoreSame s t ∧
        t.sb = s.sb)

/-- O25. Ext POP of N registers from first on through Rb loads them in ascending order from the words above the
pointer and leaves the pointer N higher; no flag, no other register and no byte of memory changes. How the field names
the first register is the spec's decision D24: the field plus 1 modulo 8, or by a parameter the field. (What a
register takes is said of words that no device changes.) (R418) -/
def Obligations.ExtPopLoadsUpwards : Prop :=
  ∀ (fld n : BitVec 3) (rb : GReg) (s : State), s.cfg.ver = .v20 →
    let first : Nat := match s.cfg.extPop with
      | .minusOne => (fld.toNat + 1) % 8
      | .direct => fld.toNat
    n ≠ 0#3 → first + n.toNat ≤ 8 → (∀ i : Nat, 1 ≤ i → i ≤ n.toNat → rb ≠ xregAt (first + i - 1)) →
    ∃ t : State, exec (.extPop n fld rb) s = .next t ∧ PopEffect rb n.toNat (fun i => xregAt (first + i - 1)) s t ∧
      (rb ≠ .core .sr → t.status = s.status)

/-- O26. After a PUSH of registers above SP through a pointer other than SR and PC, onto a stack in RAM that DMA
leaves alone, a POP of the same set through the same pointer restores every register, the pointer and SS, and from 1.2
on SR. That SS is the page of every pointer in 1.3 is the spec's decision D8 (log 23), the wrap of the pointer its
decision D7 (log 43). (R172, R173) -/
def Obligations.PopUndoesPush : Prop :=
  ∀ (rd lo rs : Reg) (n : BitVec 3) (s t : State), Memory.wf s.mem = true → rs ≠ .sr → rs ≠ .pc → rd ≠ .pc →
    lo.num.toNat + n.toNat = rd.num.toNat → (∀ i : Nat, i < n.toNat → Kept s (stackDown s (.core rs) i)) →
    exec (.push rd n rs) s = .next t →
    ∃ u : State, exec (.pop lo n rs) t = .next u ∧ u.regs = s.regs ∧ u.ss = s.ss ∧ u.pc = s.pc ∧
      (s.cfg.ver.is12Plus = true → u.status = s.status)

/-- O27. Z says that bit k of Rd was 0, k being the offset or Rs[3:0]; but for TSTB that bit of Rd is set, cleared or
inverted and its other bits stay; N, S, C and everything else stay. Rd = SR is rewritten whole after Z (decision D10).
(R290 to R296) -/
def Obligations.BitRegisterForms : Prop :=
  ∀ (rd rs : Reg) (k : BitVec 4) (s : State),
    BitRegDone (exec (.tstbRegOff rd k) s) .tst rd k s ∧
    BitRegDone (exec (.setbRegOff rd k) s) .set rd k s ∧
    BitRegDone (exec (.clrbRegOff rd k) s) .clr rd k s ∧
    BitRegDone (exec (.invbRegOff rd k) s) .inv rd k s ∧
    BitRegDone (exec (.tstbRegReg rd rs) s) .tst rd (BitVec.ofNat 4 (s.reg rs).toNat) s ∧
    BitRegDone (exec (.setbRegReg rd rs) s) .set rd (BitVec.ofNat 4 (s.reg rs).toNat) s ∧
    BitRegDone (exec (.clrbRegReg rd rs) s) .clr rd (BitVec.ofNat 4 (s.reg rs).toNat) s ∧
    BitRegDone (exec (.invbRegReg rd rs) s) .inv rd (BitVec.ofNat 4 (s.reg rs).toNat) s

/-- O28. The word at {DS or 0, Rd}, or at {DS or 0, A16}: Z says that bit k was 0; but for TSTB that bit is set,
cleared or inverted and the other bits of the word stay; no register, no other flag and no other byte changes. The
form on [A16] of 1.3, known only to the abstract decoder, does the same. Between the read and the write DMA has a
turn; in 2.0 a store to one of the three words after the instruction stops with storeAhead (decision D5; log 27).
(R290 to R297, R517) -/
def Obligations.BitMemoryForms : Prop :=
  ∀ (rd rs : Reg) (d : Bool) (k : BitVec 4) (a : Word) (s : State), Memory.wf s.mem = true →
    let page : Page := if d then s.status.ds else 0
    BitMemDone (exec (.tstbMemOff rd d k) s) .tst (mkAddr page (s.reg rd)) k s ∧
    BitMemDone (exec (.setbMemOff rd d k) s) .set (mkAddr page (s.reg rd)) k s ∧
    BitMemDone (exec (.clrbMemOff rd d k) s) .clr (mkAddr page (s.reg rd)) k s ∧
    BitMemDone (exec (.invbMemOff rd d k) s) .inv (mkAddr page (s.reg rd)) k s ∧
    BitMemDone (exec (.tstbMemReg rd d rs) s) .tst (mkAddr page (s.reg rd)) (BitVec.ofNat 4 (s.reg rs).toNat) s ∧
    BitMemDone (exec (.setbMemReg rd d rs) s) .set (mkAddr page (s.reg rd)) (BitVec.ofNat 4 (s.reg rs).toNat) s ∧
    BitMemDone (exec (.clrbMemReg rd d rs) s) .clr (mkAddr page (s.reg rd)) (BitVec.ofNat 4 (s.reg rs).toNat) s ∧
    BitMemDone (exec (.invbMemReg rd d rs) s) .inv (mkAddr page (s.reg rd)) (BitVec.ofNat 4 (s.reg rs).toNat) s ∧
    BitMemDone (exec (.tstbA16 d k a) s) .tst (mkAddr page a) k s ∧
    BitMemDone (exec (.setbA16 d k a) s) .set (mkAddr page a) k s ∧
    BitMemDone (exec (.clrbA16 d k a) s) .clr (mkAddr page a) k s ∧
    BitMemDone (exec (.invbA16 d k a) s) .inv (mkAddr page a) k s ∧
    ∀ op : BitOp, BitMemDone (exec13 (.bitA16 op d k a) s) op (mkAddr page a) k s

/-- O29. With the count in Rs[4:0], ASR leaves in Rd the floor of the signed value over 2^count, LSL the value times
2^count modulo 2^16, LSR the floor of the unsigned value over 2^count. (R241, R243 to R245) -/
def Obligations.Shift16Results : Prop :=
  ∀ (rd rs : Reg) (s : State),
    let n : Nat := (s.reg rs).toNat % 32
    (∃ t : State, exec (.asr16 rd rs) s = .next t ∧ t.reg rd = BitVec.ofInt 16 ((s.reg rd).toInt / 2 ^ n)) ∧
    (∃ t : State, exec (.lsl16 rd rs) s = .next t ∧ (t.reg rd).toNat = (s.reg rd).toNat * 2 ^ n % 65536) ∧
    (∃ t : State, exec (.lsr16 rd rs) s = .next t ∧ (t.reg rd).toNat = (s.reg rd).toNat / 2 ^ n)

/-- O30. ASR, LSL and LSR change no flag and no other state but Rd (Rd = SR is replaced whole); the unchanged flags
are the spec's decision D25. (R242, R250) -/
def Obligations.Shift16Frame : Prop :=
  ∀ (rd rs : Reg) (s : State) (i : Instr), i ∈ [.asr16 rd rs, .lsl16 rd rs, .lsr16 rd rs] →
    ∃ t : State, exec i s = .next t ∧ RegsSameBut (.core rd) s t ∧ (rd ≠ .sr → t.status = s.status) ∧
      (rd ≠ .pc → t.pc = s.pc) ∧ MemSame s t ∧ SysSame s t

/-- O31. ASROR and LSROR of R4 by the count in Rs[4:0] put the high half of the 32-bit window {R4, 0} shifted right in
R4 and OR its low half into R3; LSLOR of R3 puts the low half of the window {0, R3} shifted left in R3 and ORs its
high half into R4; Rs is read first, and nothing else changes. With any other Rd they stop with orShiftDest (decision
D9). (R246) -/
def Obligations.OrShiftResults : Prop :=
  ∀ (rs rd : Reg) (s : State),
    let n : Nat := (s.reg rs).toNat % 32
    let down (w : Int) (t : State) : Prop :=
      t.reg .r4 = BitVec.ofInt 16 (w / 65536) ∧ t.reg .r3 = s.reg .r3 ||| BitVec.ofInt 16 w
    let up (w : Int) (t : State) : Prop :=
      t.reg .r3 = BitVec.ofInt 16 w ∧ t.reg .r4 = s.reg .r4 ||| BitVec.ofInt 16 (w / 65536)
    let rest (t : State) : Prop :=
      (∀ q : GReg, q ≠ .core .r3 → q ≠ .core .r4 → t.greg q = s.greg q) ∧ t.status = s.status ∧ t.pc = s.pc ∧
        MemSame s t ∧ SysSame s t
    (∃ t : State, exec (.asrOr16 .r4 rs) s = .next t ∧ down ((s.reg .r4).toInt * 65536 / 2 ^ n) t ∧ rest t) ∧
    (∃ t : State, exec (.lsrOr16 .r4 rs) s = .next t ∧ down (((s.reg .r4).toNat : Int) * 65536 / 2 ^ n) t ∧ rest t) ∧
    (∃ t : State, exec (.lslOr16 .r3 rs) s = .next t ∧ up (((s.reg .r3).toNat : Int) * 2 ^ n % 4294967296) t ∧ rest t) ∧
    (rd ≠ .r4 → exec (.asrOr16 rd rs) s = .refused .orShiftDest ∧ exec (.lsrOr16 rd rs) s = .refused .orShiftDest) ∧
    (rd ≠ .r3 → exec (.lslOr16 rd rs) s = .refused .orShiftDest)

/-- O32. With the count n in Rs[4:0], Rs other than R3 and R4: LSR on R3 then ASROR on R4 leaves MR arithmetically
shifted right by n, LSR then LSROR shifts it right logically, LSL on R4 then LSLOR on R3 shifts it left; each answers
a next state. (R246) -/
def Obligations.OrShiftsMakeThirtyTwoBitShifts : Prop :=
  ∀ (rs : Reg) (s : State), rs ≠ .r3 → rs ≠ .r4 →
    let n : Nat := (s.reg rs).toNat % 32
    ∀ (i j : Instr) (v : BitVec 32), (i, j, v) ∈
        [(.lsr16 .r3 rs, .asrOr16 .r4 rs, s.mr.sshiftRight n), (.lsr16 .r3 rs, .lsrOr16 .r4 rs, s.mr >>> n),
         (.lsl16 .r4 rs, .lslOr16 .r3 rs, s.mr <<< n)] →
      ∃ t u : State, exec i s = .next t ∧ exec j t = .next u ∧ u.mr = v

/-- O33. The 17-bit value {C, Rd} is rotated by Rs[3:0] places: its low 16 bits go to Rd and its top bit to C (with Rd
= SR the register's bits remain, decision D10); N, Z, S and everything else stay. (R248 to R250) -/
def Obligations.RotatesThroughCarry : Prop :=
  ∀ (rd rs : Reg) (s : State) (i : Instr) (v : BitVec 17),
    let x : BitVec 17 := BitVec.ofBool s.status.c ++ s.reg rd
    let n : Nat := (s.reg rs).toNat % 16
    (i, v) ∈ [(.rol16 rd rs, x.rotateLeft n), (.ror16 rd rs, x.rotateRight n)] →
    ∃ t : State, exec i s = .next t ∧ t.reg rd = v.extractLsb' 0 16 ∧
      (rd ≠ .sr → t.status = { s.status with c := v.getLsbD 16 }) ∧ RegsSameBut (.core rd) s t ∧
      (rd ≠ .pc → t.pc = s.pc) ∧ MemSame s t ∧ SysSame s t

/-- O34. MUL of Rd and Rs, unsigned, unsigned by signed or signed, doubled in fraction mode, leaves the low 32 bits of
the exact product in MR, both operands read first; no flag and no other register changes, and of the shift buffers
only the one in use may change. In 1.0 and 1.1 a register outside R1 to R4 and BP stops with mulOperand (decision
D26). (R260, R262; the shift buffer U1) -/
def Obligations.MulPutsProductInMr : Prop :=
  ∀ (rd rs : Reg) (s : State),
    let allowed : Prop := rd ∈ [.r1, .r2, .r3, .r4, .bp] ∧ rs ∈ [.r1, .r2, .r3, .r4, .bp]
    (s.cfg.ver.is12Plus = true ∨ allowed →
      MulDone (exec (.mulUu rd rs) s) .uu rd rs s ∧ MulDone (exec (.mulUs rd rs) s) .us rd rs s ∧
      MulDone (exec (.mulSs rd rs) s) .ss rd rs s) ∧
    (s.cfg.ver.is12Plus = false → ¬ allowed →
      exec (.mulUs rd rs) s = .refused .mulOperand ∧ exec (.mulSs rd rs) s = .refused .mulOperand)

/-- O35. On two different pointers, with FIR_MOVE off or one level: MR takes the low 32 bits of the sum of the n
products of the words the pointers address one after the other (page 0, in 1.3 the pages of MDS), summed from zero;
from 1.2 on the guard bits 35:32 go to the shift buffer in use and S says that the sum is not the sign extension of
its low 32 bits; each pointer ends n higher (MR, written last, wins over R3 and R4); no memory is written and no other
flag, register or special register changes (the shift buffers not in use among them; before 1.2 the buffer in use is
left open, U1). It completes whatever the words are; what it leaves is said of words that no device and no DMA access
changes meanwhile. SR as a pointer leaves its end value out (log 47). Seed and overflow are the spec's decision D20.
The order of the two reads of a level, which the rule leaves open (log 58), does not show in such words. (R261 to
R267) -/
def Obligations.MulsSumsProducts : Prop :=
  ∀ (rd rs : Reg) (n : BitVec 4) (s : State), rd ≠ rs → MulsOperandsOk s.cfg.ver rd rs (levelCount n) →
    (s.flags.fir = true ∨ n = 1#4) →
    MulsDone (exec (.mulsUu rd n rs) s) .uu rd rs n false s ∧
    MulsDone (exec (.mulsUs rd n rs) s) .us rd rs n false s ∧
    MulsDone (exec (.mulsSs rd n rs) s) .ss rd rs n false s

/-- O36. With FIR_MOVE on and more than one level, on two different pointers, where no Rs-side word is a word the move
has already overwritten: the sum, the flags and the pointers are as without the move, and each word of the Rd array
but the last is copied to the next higher address; no other byte changes (the spec's decision D20). It completes
whatever the words are; what it leaves is said of a Rd array in RAM and of words that no device and no DMA access
changes meanwhile. In 2.0 it stops with storeAhead where a word it stores is one of the three after it (decision D5;
log 27). SR as a pointer leaves its end value out (log 47). The order of the two reads of a level, which the rule
leaves open (log 58), does not show in such words. (R264, R267, R517) -/
def Obligations.MulsMovesForward : Prop :=
  ∀ (rd rs : Reg) (n : BitVec 4) (s : State), rd ≠ rs → MulsOperandsOk s.cfg.ver rd rs (levelCount n) →
    s.flags.fir = false → n ≠ 1#4 → Memory.wf s.mem = true →
    (∀ i j : Nat, i < levelCount n → 1 ≤ j → j < i →
      mulsAddr s.cfg.ver s.mds.segS (s.reg rs) i ≠ mulsAddr s.cfg.ver s.mds.segD (s.reg rd) j) →
    MulsDone (exec (.mulsUu rd n rs) s) .uu rd rs n true s ∧
    MulsDone (exec (.mulsUs rd n rs) s) .us rd rs n true s ∧
    MulsDone (exec (.mulsSs rd n rs) s) .ss rd rs n true s

/-- O37. With Rd and Rs the same register and FIR_MOVE off, in every version from 1.2 on but 1.3, both operands of a
level are the same word and the pointer steps twice per level; it completes whatever the words are, and what it leaves
is said of words that no device and no DMA access changes meanwhile. The operands the spec excludes stop with
mulsOperand (decision D26). The allowed operands complete, in 1.3 with Rd and Rs the same register too; in 2.0 with
the FIR move on one pointer, where the words it stores are not one of the three after it (else storeAhead, decision
D5). The order of the two reads of a level, which the rule leaves open (log 58), does not show in such words. (R266,
R267, R517) -/
def Obligations.MulsOnOnePointer : Prop :=
  ∀ (r rd rs : Reg) (n : BitVec 4) (s : State),
    let ea : Nat → Addr := fun l => mkAddr 0 (s.reg r + BitVec.ofNat 16 (2 * l))
    (s.cfg.ver = .v12 ∨ s.cfg.ver = .v20 → MulsOperandsOk s.cfg.ver r r (levelCount n) →
      ∀ (i : Instr) (k : MulKind), (i, k) ∈ [(.mulsUu r n r, .uu), (.mulsUs r n r, .us), (.mulsSs r n r, .ss)] →
        (s.flags.fir = true →
          let x : Nat → Word := fun l => s.readWord (ea l)
          ∃ t : State, exec i s = .next t ∧
            ((∀ l : Nat, l < levelCount n → Steady s (ea l)) →
              MulsEffect k r r (levelCount n) x x ea ea false s t)) ∧
        (s.flags.fir = false →
          let ahead : Prop := ∃ l : Nat, 1 ≤ l ∧ l < levelCount n ∧ Ahead s (ea l)
          (ahead → exec i s = .refused .storeAhead) ∧ (¬ ahead → ∃ t : State, exec i s = .next t))) ∧
    ∀ i : Instr, i ∈ [.mulsUu rd n rs, .mulsUs rd n rs, .mulsSs rd n rs] →
      (¬ MulsOperandsOk s.cfg.ver rd rs (levelCount n) → exec i s = .refused .mulsOperand) ∧
      (MulsOperandsOk s.cfg.ver rd rs (levelCount n) → s.cfg.ver ≠ .v20 ∨ s.flags.fir = true ∨ n = 1#4 →
        ∃ t : State, exec i s = .next t)

/-- O38. DIVS sets AQ to the exclusive or of the signs of R4 and R2 and shifts MR left by one with AQ entering; DIVQ
adds or subtracts R2 to R4 as AQ says, sets AQ from the signs, shifts the pair left by one and enters the complement
of AQ. No flag of SR and nothing but AQ, R3 and R4 changes. The steps are not in the source (log 13). (R268 to R270)
-/
def Obligations.DivisionSteps : Prop :=
  ∀ s : State,
    let b (x : Bool) : Nat := x.toNat
    let top (w : Word) : Bool := w.getLsbD 15
    let aq1 : Bool := xor (top (s.reg .r4)) (top (s.reg .r2))
    let r : Word := if s.flags.aq then s.reg .r4 + s.reg .r2 else s.reg .r4 - s.reg .r2
    let aq2 : Bool := xor (top r) (top (s.reg .r2))
    (∃ t : State, exec .divs s = .next t ∧ t.flags = { s.flags with aq := aq1 } ∧
      (t.reg .r4).toNat = ((s.reg .r4).toNat * 2 + b (top (s.reg .r3))) % 65536 ∧
      (t.reg .r3).toNat = (s.reg .r3).toNat * 2 % 65536 + b aq1 ∧
      (∀ q : GReg, q ≠ .core .r3 → q ≠ .core .r4 → t.greg q = s.greg q) ∧ t.status = s.status ∧ t.pc = s.pc ∧
      MemSame s t ∧ t.sb = s.sb ∧ t.ss = s.ss ∧ t.mds = s.mds ∧ t.svc = s.svc ∧ t.otherBank = s.otherBank) ∧
    (∃ t : State, exec .divq s = .next t ∧ t.flags = { s.flags with aq := aq2 } ∧
      (t.reg .r4).toNat = r.toNat * 2 % 65536 + b (top (s.reg .r3)) ∧
      (t.reg .r3).toNat = (s.reg .r3).toNat * 2 % 65536 + b (!aq2) ∧
      (∀ q : GReg, q ≠ .core .r3 → q ≠ .core .r4 → t.greg q = s.greg q) ∧ t.status = s.status ∧ t.pc = s.pc ∧
      MemSame s t ∧ t.sb = s.sb ∧ t.ss = s.ss ∧ t.mds = s.mds ∧ t.svc = s.svc ∧ t.otherBank = s.otherBank)

/-- O39. DIVUU sets AQ to 0 and makes sixteen DIVQ steps; with twice the dividend in MR and a divisor from 1 to 0x7FFF
in R2 such that the quotient fits 16 bits it leaves the quotient in R3, whatever AQ was. DIVSS makes one DIVS and
fifteen DIVQ steps. That they are these steps is the spec's decision D22 (log 37), the step its decision D21 (log 13).
(R272, R274, R275) -/
def Obligations.DivuuDivides : Prop :=
  ∀ s : State,
    (∃ f : Nat → State, f 0 = { s with flags := { s.flags with aq := false } } ∧
      (∀ k : Nat, k < 16 → exec .divq (f k) = .next (f (k + 1))) ∧ exec13 .divuu s = .next (f 16) ∧
      (∀ dividend : Nat, s.mr.toNat = 2 * dividend → 1 ≤ (s.reg .r2).toNat → (s.reg .r2).toNat ≤ 0x7FFF →
        dividend < (s.reg .r2).toNat * 65536 → ((f 16).reg .r3).toNat = dividend / (s.reg .r2).toNat)) ∧
    ∃ f : Nat → State, exec .divs s = .next (f 0) ∧
      (∀ k : Nat, k < 15 → exec .divq (f k) = .next (f (k + 1))) ∧ exec13 .divss s = .next (f 15)

/-- O40. R2 becomes the number k of leading bits of R4 after bit 15 that equal bit 15, 0 to 15, and 15 where all do;
R4 and the flags are unchanged, and so is everything else. (R273) -/
def Obligations.ExpCountsRedundantSigns : Prop :=
  ∀ s : State, ∃ (t : State) (k : Nat), exec .exp s = .next t ∧ (t.reg .r2).toNat = k ∧ k ≤ 15 ∧
    (∀ j : Nat, j < k → (s.reg .r4).getLsbD (14 - j) = (s.reg .r4).getLsbD 15) ∧
    (k < 15 → (s.reg .r4).getLsbD (14 - k) ≠ (s.reg .r4).getLsbD 15) ∧
    RegsSameBut (.core .r2) s t ∧ t.status = s.status ∧ t.pc = s.pc ∧ MemSame s t ∧ SysSame s t

/-- O41. DS = IM6 and DS = Rs write the six bits and leave the other bits of SR and everything else; Rs = DS gives the
six bits filled with zeros to Rs, and with Rs other than SR leaves SR; Rs = PC stops with specialToPc (the spec's
decision D27). (R310 to R312, R319) -/
def Obligations.DataSegmentAccess : Prop :=
  ∀ (im : BitVec 6) (rs : Reg) (s : State),
    exec (.dsIm6 im) s = .next { s with status := { s.status with ds := im } } ∧
    exec (.dsEqRs rs) s = .next { s with status := { s.status with ds := BitVec.ofNat 6 (s.reg rs).toNat } } ∧
    (rs ≠ .pc → ∃ t : State, exec (.rsEqDs rs) s = .next t ∧ (t.reg rs).toNat = s.status.ds.toNat ∧
      RegsSameBut (.core rs) s t ∧ (rs ≠ .sr → t.status = s.status) ∧ t.pc = s.pc ∧ MemSame s t ∧ SysSame s t) ∧
    exec (.rsEqDs .pc) s = .refused .specialToPc

/-- O42. FR = Rs gives AQ, BNK, FRA, FIR, F, I, INE and PRI their bits of Rs and the shift buffer in use bits 10:7,
and bit 15 is stored; Rs = FR gives all 16 bits in the layout of FR, and right after FR = Rs the same word; neither
changes memory, and only Rs = FR changes a register. Rs = PC as destination stops with specialToPc (decision D27). Bit
15 and the buffer in use are the spec's decisions D15 and D16. (R313, R314, R319) -/
def Obligations.FlagRegisterAccess : Prop :=
  ∀ (rs rd : Reg) (s : State),
    let w : Word := s.reg rs
    (∃ t : State, exec (.frEqRs rs) s = .next t ∧
      t.flags = { top := w.getLsbD 15, aq := w.getLsbD 14, bnk := w.getLsbD 13, fra := w.getLsbD 12,
                  fir := w.getLsbD 11, f := w.getLsbD 6, i := w.getLsbD 5, ine := w.getLsbD 4,
                  pri := BitVec.ofNat 4 w.toNat } ∧
      t = { withShiftBuf s (w.extractLsb' 7 4) with flags := t.flags } ∧
      (rd ≠ .pc → ∃ u : State, exec (.rsEqFr rd) t = .next u ∧ u.reg rd = w)) ∧
    (rd ≠ .pc → ∃ u : State, exec (.rsEqFr rd) s = .next u ∧
      u.reg rd = BitVec.ofBool s.flags.top ++ BitVec.ofBool s.flags.aq ++ BitVec.ofBool s.flags.bnk ++
        BitVec.ofBool s.flags.fra ++ BitVec.ofBool s.flags.fir ++ s.shiftBuf ++ BitVec.ofBool s.flags.f ++
        BitVec.ofBool s.flags.i ++ BitVec.ofBool s.flags.ine ++ s.flags.pri ∧
      RegsSameBut (.core rd) s u ∧ (rd ≠ .sr → u.status = s.status) ∧ u.pc = s.pc ∧ MemSame s u ∧ SysSame s u) ∧
    exec (.rsEqFr .pc) s = .refused .specialToPc

/-- O43. SS = Rs takes the six low bits of Rs, Rs = SS gives them filled with zeros and with Rs other than SR leaves
SR; MDS = R3 keeps bits 13:8 and 5:0, R3 = MDS gives MDS with its other four bits 0, and right after MDS = R3 it gives
R3 with those bits 0; nothing else changes. Rs = PC as destination of Rs = SS stops with specialToPc. The ignored bits
are the spec's decision D15, the stop its decision D27. (R315 to R319) -/
def Obligations.StackAndProductSegments : Prop :=
  ∀ (rs : Reg) (s : State),
    exec13 (.ssEqRs rs) s = .next { s with ss := BitVec.ofNat 6 (s.reg rs).toNat } ∧
    (rs ≠ .pc → ∃ t : State, exec13 (.rsEqSs rs) s = .next t ∧ (t.reg rs).toNat = s.ss.toNat ∧
      RegsSameBut (.core rs) s t ∧ (rs ≠ .sr → t.status = s.status) ∧ t.pc = s.pc ∧ MemSame s t ∧ SysSame s t) ∧
    exec13 (.rsEqSs .pc) s = .refused .specialToPc ∧
    (∃ u : State, exec13 .r3EqMds s = .next u ∧ u.reg .r3 = 0#2 ++ s.mds.segD ++ 0#2 ++ s.mds.segS ∧
      RegsSameBut (.core .r3) s u ∧ u.status = s.status ∧ u.pc = s.pc ∧ MemSame s u ∧ SysSame s u) ∧
    ∃ t u : State, exec13 .mdsEqR3 s = .next t ∧
      t = { s with mds := { segD := BitVec.ofNat 6 ((s.reg .r3).toNat / 256)
                            segS := BitVec.ofNat 6 (s.reg .r3).toNat } } ∧
      exec13 .r3EqMds t = .next u ∧ u.reg .r3 = s.reg .r3 &&& 0x3F3F#16

/-- O44. FIQ ON and OFF write F alone, IRQ ON and OFF write I alone, INT writes both, from the bits of the words the
spec prints; nothing else changes; both are 0 after reset. (R362 to R364) -/
def Obligations.EnableInstructions : Prop :=
  ∀ (p : Params) (on f i : Bool) (s : State),
    exec (.fiq on) s = .next { s with flags := { s.flags with f := on } } ∧
    exec (.irq on) s = .next { s with flags := { s.flags with i := on } } ∧
    exec (.int f i) s = .next { s with flags := { s.flags with f := f, i := i } } ∧
    encode p (.fiq true) = [0xF14E#16] ∧ encode p (.fiq false) = [0xF14C#16] ∧
    encode p (.irq true) = [0xF149#16] ∧ encode p (.irq false) = [0xF148#16] ∧
    encode p (.int false false) = [0xF140#16] ∧ encode p (.int false true) = [0xF141#16] ∧
    encode p (.int true false) = [0xF142#16] ∧ encode p (.int true true) = [0xF143#16] ∧
    State.reset.flags.f = false ∧ State.reset.flags.i = false

/-- O45. FIR_MOV, FRACTION, SECBANK and IRQNEST write FIR (0 for ON), FRA, BNK and INE alone; NOP changes nothing; the
words are those the spec prints. (R361, R365 to R368) -/
def Obligations.ModeInstructions : Prop :=
  ∀ (p : Params) (on : Bool) (s : State),
    exec (.firMov on) s = .next { s with flags := { s.flags with fir := on } } ∧
    exec (.fraction on) s = .next { s with flags := { s.flags with fra := on } } ∧
    exec (.secbank on) s = .next { s with flags := { s.flags with bnk := on } } ∧
    exec (.irqnest on) s = .next { s with flags := { s.flags with ine := on } } ∧
    exec .nop s = .next s ∧
    encode p (.firMov false) = [0xF144#16] ∧ encode p (.firMov true) = [0xF145#16] ∧
    encode p (.fraction true) = [0xF147#16] ∧ encode p (.fraction false) = [0xF146#16] ∧
    encode p (.secbank true) = [0xF14B#16] ∧ encode p (.secbank false) = [0xF14A#16] ∧
    encode p (.irqnest true) = [0xF14F#16] ∧ encode p (.irqnest false) = [0xF14D#16] ∧
    encode p .nop = [0xF165#16]

/-- O46. While BNK selects SR1 to SR4 no instruction of the table changes R1 to R4, and while it selects R1 to R4 none
changes SR1 to SR4; an instruction that changes BNK is SECBANK, FR = Rs or RETI. (R30, R365) -/
def Obligations.BankNotInUseIsUntouched : Prop :=
  ∀ (i : Instr) (s t : State), exec i s = .next t →
    (s.bank = true → t.regs.r1 = s.regs.r1 ∧ t.regs.r2 = s.regs.r2 ∧ t.regs.r3 = s.regs.r3 ∧ t.regs.r4 = s.regs.r4) ∧
    (s.bank = false → t.regs.s1 = s.regs.s1 ∧ t.regs.s2 = s.regs.s2 ∧ t.regs.s3 = s.regs.s3 ∧ t.regs.s4 = s.regs.s4) ∧
    (t.flags.bnk ≠ s.flags.bnk → (∃ on : Bool, i = .secbank on) ∨ (∃ rs : Reg, i = .frEqRs rs) ∨ i = .reti)

/-- O47. An instruction of the table that is not an extended one leaves R8 to R15 as they are, and only BREAK and RETI
change which levels are in service. (R431, R468) -/
def Obligations.OnlyExtendedInstructionsWriteExtendRegisters : Prop :=
  ∀ (i : Instr) (s t : State), exec i s = .next t →
    (isExtended i.shape = false → t.xregs = s.xregs) ∧ (t.svc ≠ s.svc → i = .brk ∨ i = .reti)

/-- O48. Each conditional branch, with the COND code the spec gives it in bits 15:12, does what JMP with its operands
does where its condition on N, Z, S and C holds, and goes to the next instruction where it does not. (R336 to R347;
JVC and JVS R348, R349) -/
def Obligations.BranchConditions : Prop :=
  ∀ (p : Params) (back : Bool) (im : BitVec 6) (s : State) (i : Instr) (code : BitVec 4) (taken : Bool),
    (i, code, taken) ∈
        [(.jcc back im, 0#4, decide (s.status.c = false)),
         (.jcs back im, 1#4, decide (s.status.c = true)),
         (.jsc back im, 2#4, decide (s.status.s = false)),
         (.jss back im, 3#4, decide (s.status.s = true)),
         (.jne back im, 4#4, decide (s.status.z = false)),
         (.jz back im, 5#4, decide (s.status.z = true)),
         (.jpl back im, 6#4, decide (s.status.n = false)),
         (.jmi back im, 7#4, decide (s.status.n = true)),
         (.jbe back im, 8#4, decide (¬ (s.status.z = false ∧ s.status.c = true))),
         (.jnbe back im, 9#4, decide (s.status.z = false ∧ s.status.c = true)),
         (.jle back im, 10#4, decide (¬ (s.status.z = false ∧ s.status.s = false))),
         (.jnle back im, 11#4, decide (s.status.z = false ∧ s.status.s = false)),
         (.jvc back im, 12#4, decide (s.status.n = s.status.s)),
         (.jvs back im, 13#4, decide (s.status.n ≠ s.status.s))] →
      (∃ w : Word, encode p i = [w] ∧ w.extractLsb' 12 4 = code) ∧
      (taken = true → exec i s = exec (.jmp back im) s) ∧ (taken = false → exec i s = .next s)

/-- O49. A taken branch goes IM6 words forward or backward from the instruction after it: in 1.0 inside the page that
CS names, in every later version over the 22-bit {CS, PC}; JMP is always taken; a branch changes no flag and nothing
but CS and PC. The base is the model's reading (log 9; the source prints only PC and IM6). (R335, R90, R350) -/
def Obligations.BranchesGoToTheirTargets : Prop :=
  ∀ (back : Bool) (im : BitVec 6) (s : State),
    BranchDone (exec (.jcc back im) s) (decide (s.status.c = false)) back im s ∧
    BranchDone (exec (.jcs back im) s) (decide (s.status.c = true)) back im s ∧
    BranchDone (exec (.jsc back im) s) (decide (s.status.s = false)) back im s ∧
    BranchDone (exec (.jss back im) s) (decide (s.status.s = true)) back im s ∧
    BranchDone (exec (.jne back im) s) (decide (s.status.z = false)) back im s ∧
    BranchDone (exec (.jz back im) s) (decide (s.status.z = true)) back im s ∧
    BranchDone (exec (.jpl back im) s) (decide (s.status.n = false)) back im s ∧
    BranchDone (exec (.jmi back im) s) (decide (s.status.n = true)) back im s ∧
    BranchDone (exec (.jbe back im) s) (decide (¬ (s.status.z = false ∧ s.status.c = true))) back im s ∧
    BranchDone (exec (.jnbe back im) s) (decide (s.status.z = false ∧ s.status.c = true)) back im s ∧
    BranchDone (exec (.jle back im) s) (decide (¬ (s.status.z = false ∧ s.status.s = false))) back im s ∧
    BranchDone (exec (.jnle back im) s) (decide (s.status.z = false ∧ s.status.s = false)) back im s ∧
    BranchDone (exec (.jvc back im) s) (decide (s.status.n = s.status.s)) back im s ∧
    BranchDone (exec (.jvs back im) s) (decide (s.status.n ≠ s.status.s)) back im s ∧
    BranchDone (exec (.jmp back im) s) true back im s

/-- O50. GOTO goes to its 22-bit address and GOTO MR to {R4[5:0], R3}; nothing is pushed, and DS, the flags, the
registers, memory and the special registers are unchanged. (R352, R353) -/
def Obligations.GotoJumps : Prop :=
  ∀ (hi : Page) (lo : Word) (s : State),
    (∃ t : State, exec (.goto hi lo) s = .next t ∧ t.nextPc.toNat = hi.toNat * 65536 + lo.toNat ∧ OnlyJumped s t) ∧
    (∃ t : State, exec .gotoMr s = .next t ∧
      t.nextPc.toNat = (s.reg .r4).toNat % 64 * 65536 + (s.reg .r3).toNat ∧ OnlyJumped s t)

/-- O51. CALL pushes PC (nextpc) and below it SR, leaves SP two lower, and goes to its 22-bit address, CALL MR to
{R4[5:0], R3}; DS, N, Z, S, C, every other register and every other byte of memory are unchanged. What the pushed
words read as is said of RAM that DMA leaves alone. In 2.0 a store to one of the three words after the instruction
stops with storeAhead (decision D5; log 27). That the PC pushed is nextpc is the model's choice (log 8, PRESUMED; R28
takes it from general knowledge). (R330 to R332, R517) -/
def Obligations.CallSavesReturnState : Prop :=
  ∀ (hi : Page) (lo : Word) (s : State), Memory.wf s.mem = true →
    (¬ StackAhead (.core .sp) 2 s →
      (∃ t : State, exec (.call hi lo) s = .next t ∧ t.nextPc = mkAddr hi lo ∧ ReturnStateSaved none s t ∧
        FlagsAndDsSame s t ∧ CoreSame s t ∧ t.sb = s.sb) ∧
      (∃ t : State, exec .callMr s = .next t ∧ t.nextPc.toNat = (s.reg .r4).toNat % 64 * 65536 + (s.reg .r3).toNat ∧
        ReturnStateSaved none s t ∧ FlagsAndDsSame s t ∧ CoreSame s t ∧ t.sb = s.sb)) ∧
    (StackAhead (.core .sp) 2 s →
      exec (.call hi lo) s = .refused .storeAhead ∧ exec .callMr s = .refused .storeAhead)

/-- O52. RETF loads SR, all 16 bits, from the word above SP and PC from the next, leaves SP two higher, and touches no
other register, no in-service level, no special register (in 1.3 SS counts with SP) and no memory but by its two
loads. (R333) -/
def Obligations.RetfPopsSrAndPc : Prop :=
  (∀ s : State, ∃ t : State, exec .retf s = .next t ∧ ReturnedFar s t ∧ CoreSame s t ∧ t.sb = s.sb) ∧
  ∀ p : Params, encode p .retf = [0x9A90#16] ∧ decodeWords p [0x9A90#16] = .ok .retf

/-- O53. After a CALL or CALL MR onto a stack in RAM that DMA leaves alone, a RETF in any state with the same memory,
registers, SS and parameters as the CALL left goes back to the instruction after the CALL with SR, SP and SS as they
were before it. (R330 to R333) -/
def Obligations.RetfReturnsFromCall : Prop :=
  ∀ (hi : Page) (lo : Word) (i : Instr) (s t r : State), Memory.wf s.mem = true → i = .call hi lo ∨ i = .callMr →
    exec i s = .next t → r.mem = t.mem → r.regs = t.regs → r.ss = t.ss → r.cfg = t.cfg →
    (∀ k : Nat, k < 2 → Kept s (stackDown s (.core .sp) k) ∧ Kept r (stackDown s (.core .sp) k)) →
    ∃ u : State, exec .retf r = .next u ∧ u.status = s.status ∧ u.pc = s.pc ∧ u.regs = s.regs ∧ u.ss = s.ss

/-- O54. RETI completes from every state. It pops FR first where the version and the level in service say so ([1.2]
and [2.0] an IRQ with INE on, [1.3] an IRQ or FIQ), then SR and PC as RETF does, and removes the top level from SVC;
with nothing in service it does what RETF does; no other register, no other special register and no memory but by its
loads changes. The popped FR goes into the shift buffer in use before the level is removed (decision D16, log 35).
(R334, R472) -/
def Obligations.RetiReturns : Prop :=
  ∀ s : State,
    let withFr : Bool := match s.cfg.ver with
      | .v10 | .v11 => false
      | .v12 | .v20 => decide (s.svc.head? = some .irq) && s.flags.ine
      | .v13 => decide (s.svc.head? = some .irq) || decide (s.svc.head? = some .fiq)
    let d : Nat := if withFr then 1 else 0
    let x := s.load (stackUp s (.core .sp) 1)
    let y := (if withFr then x.2 else s).load (stackUp s (.core .sp) (d + 1))
    let z := y.2.load (stackUp s (.core .sp) (d + 2))
    ∃ t : State, exec .reti s = .next t ∧ t.srWord = y.1 ∧ t.pc = z.1 ∧
      StackUpBy (.core .sp) (d + 2) s t ∧ t.regs = { s.regs with sp := t.regs.sp } ∧ MemSame z.2 t ∧
      t.svc = s.svc.tail ∧ t.cfg = s.cfg ∧ t.pins = s.pins ∧ t.mds = s.mds ∧ t.dmack = s.dmack ∧ t.hold = s.hold ∧
      t.freeIdx = s.freeIdx ∧
      (withFr = false → t.flags = s.flags ∧ t.sb = s.sb) ∧
      (withFr = true → t.flags = FlagReg.ofWord x.1 ∧ t.sb = (withShiftBuf s (x.1.extractLsb' 7 4)).sb) ∧
      (s.svc = [] → exec .retf s = .next t)

/-- O55. BREAK pushes PC and SR and never FR, goes to {0, the word at vector slot 5}, and from 1.2 on puts the level
BRK in service; F, I, INE, PRI and all of FR, DS, the flags, every other register, the register bank not in use and
every other special register are unchanged, and so is every byte outside the two pushed words. What the pushed words
read as is said of RAM that DMA leaves alone. In 2.0 a store to one of the three words after the instruction stops
with storeAhead (decision D5; log 27). That the PC pushed is nextpc is the model's choice (log 8, PRESUMED; R28 takes
it from general knowledge). (R351, R466, R517) -/
def Obligations.BreakEnters : Prop :=
  ∀ s : State, Memory.wf s.mem = true →
    (¬ StackAhead (.core .sp) 2 s → ∃ t : State, exec .brk s = .next t ∧ ReturnStateSaved none s t ∧
      AtVector 5#4 s t ∧ FlagsAndDsSame s t ∧ t.flags = s.flags ∧
      t.svc = (if s.cfg.ver.is12Plus then .brk :: s.svc else s.svc) ∧ t.sb = s.sb ∧ t.mds = s.mds ∧ t.cfg = s.cfg ∧
      t.otherBank = s.otherBank ∧ t.pins = s.pins ∧ t.dmack = s.dmack ∧ t.hold = s.hold ∧ t.freeIdx = s.freeIdx) ∧
    (StackAhead (.core .sp) 2 s → exec .brk s = .refused .storeAhead)

/-- O56. At a sampling point an FIQ that may be taken is entered, else an IRQ that may be taken: PC, SR and, where the
version and INE say so, FR go on the stack, FR changes as the entry says, the level is put in service, and the handler
starts at {0, vector word} with DS and the flags kept. After an FIQ entry the next step looks at no request, so that
the first instruction of the routine runs first; after an IRQ entry it does look: the model's reading of R476 and of
vector V3 (log 19). DMACK is low, the model's choice (log 57). Where none may be taken, or right after an instruction
that holds sampling back, the step runs the next instruction. The masking by FIQ and BREAK in service is the spec's
decision D30, CS = 0 its decision D13. What the pushed words read as is said of RAM that DMA leaves alone. (R452,
R454, R459, R469 to R471, R476) -/
def Obligations.RequestsAreTaken : Prop :=
  ∀ s : State, Running s → Memory.wf s.mem = true →
    (s.hold = false → Takes s .fiq →
      ∃ t : State, step s = .next t ∧ Entered .fiq s t ∧ t.hold = true ∧ t.dmack = false) ∧
    (∀ n : BitVec 3, s.hold = false → ¬ Takes s .fiq → Takes s (.irq n) →
      ∃ t : State, step s = .next t ∧ Entered (.irq n) s t ∧ t.hold = false ∧ t.dmack = false) ∧
    ((s.hold = true ∨ ∀ e : Event, ¬ Takes s e) → step s = runNext { s with dmack := false })

/-- O57. After the entry of a request onto a stack in RAM that DMA leaves alone, a RETI in any state with the memory,
registers, SS, FR, shift buffers and levels in service the entry left goes back to the interrupted instruction with
SR, SP, SS, FR, the levels in service and the shift buffer in use as they were before the entry. (R334, R454, R467,
R472, R473) -/
def Obligations.RetiRestoresInterruptedProgram : Prop :=
  ∀ (e : Event) (s t r : State), Running s → Memory.wf s.mem = true → s.hold = false → Takes s e →
    (e ≠ .fiq → ¬ Takes s .fiq) → step s = .next t → r.mem = t.mem → r.regs = t.regs → r.ss = t.ss → r.cfg = t.cfg →
    r.flags = t.flags → r.sb = t.sb → r.svc = t.svc →
    (∀ k : Nat, k < (if SavesFr s e then 3 else 2) →
      Kept s (stackDown s (.core .sp) k) ∧ Kept r (stackDown s (.core .sp) k)) →
    ∃ u : State, exec .reti r = .next u ∧ u.status = s.status ∧ u.pc = s.pc ∧ u.regs = s.regs ∧ u.ss = s.ss ∧
      u.flags = s.flags ∧ u.svc = s.svc ∧ u.shiftBuf = s.shiftBuf

/-- O58. In 1.0 and 1.1 none; in 1.2 those and only those reading [A16] (W = 0); in 1.3 those, RETI and the two MDS
accesses; in 2.0 those reading or writing [A16], the store among them, and RETI. Bit operations on [A16] do not count
(a statement of the spec's own; log 20). (R459) -/
def Obligations.NoSamplingAfter : Prop :=
  let reads (i : Instr) : Prop :=
    (∃ (op : AluOp) (rd rs : Reg) (a : Word), i.shape = .aluA16 op false rd rs a) ∨
    (∃ (op : AluOp) (ra rb : GReg) (a : Word), i.shape = .extA16 op false ra rb a)
  let writes (i : Instr) : Prop :=
    (∃ (op : AluOp) (rd rs : Reg) (a : Word), i.shape = .aluA16 op true rd rs a) ∨
    (∃ (op : AluOp) (ra rb : GReg) (a : Word), i.shape = .extA16 op true ra rb a) ∨
    (∃ (rd rs : Reg) (a : Word), i = .storeA16 rd rs a) ∨ (∃ (ra rb : GReg) (a : Word), i = .extStoreA16 ra rb a)
  (∀ i : Instr, noSampleAfter .v10 i = false ∧ noSampleAfter .v11 i = false ∧
    (noSampleAfter .v12 i = true ↔ reads i) ∧
    (noSampleAfter .v13 i = true ↔ reads i ∨ i = .reti) ∧
    (noSampleAfter .v20 i = true ↔ reads i ∨ writes i ∨ i = .reti)) ∧
  ∀ i : Instr13, noSampleAfter13 i = true ↔ i = .mdsEqR3 ∨ i = .r3EqMds

/-- O59. The vectors of BREAK, FIQ, RESET and IRQ0 to IRQ7 lie at the addresses of the table by TEST in 1.2 and 2.0,
at the TEST = 00 addresses in 1.0 and 1.1, and in 1.3 at {~TEST[1], INT_BASE, ~TEST[0], slot}. That AdE goes through
the slot of BREAK is the spec's decision D23 (log 36). (R462 to R465) -/
def Obligations.VectorTables : Prop :=
  (∀ (p : Params) (e : Nat), e < 11 →
    (p.ver = .v12 ∨ p.ver = .v20 →
      (p.test = 0#2 → (vectorAddr p (BitVec.ofNat 4 (5 + e))).toNat = 0x00FFF5 + e) ∧
      (p.test = 1#2 → (vectorAddr p (BitVec.ofNat 4 (5 + e))).toNat = 0x00FFE5 + e) ∧
      (p.test = 2#2 → (vectorAddr p (BitVec.ofNat 4 (5 + e))).toNat = 0x007FF5 + e) ∧
      (p.test = 3#2 → (vectorAddr p (BitVec.ofNat 4 (5 + e))).toNat = 0x007FE5 + e)) ∧
    (p.ver = .v10 ∨ p.ver = .v11 → (vectorAddr p (BitVec.ofNat 4 (5 + e))).toNat = 0x00FFF5 + e) ∧
    (p.ver = .v13 → vectorAddr p (BitVec.ofNat 4 (5 + e)) =
      0#6 ++ ~~~(p.test.extractLsb' 1 1) ++ p.intBase ++ ~~~(p.test.extractLsb' 0 1) ++ BitVec.ofNat 4 (5 + e))) ∧
  Event.slot .brk = 5#4 ∧ Event.slot .ade = 5#4 ∧ Event.slot .fiq = 6#4 ∧ resetSlot = 7#4 ∧
  ∀ n : BitVec 3, Event.slot (.irq n) = BitVec.ofNat 4 (8 + n.toNat)

/-- O60. B: and W: accesses through the 23-bit pointer of a register pair: a byte load gives the byte filled with
zeros, a word load the word, with the flags of LOAD; a byte store changes one byte, a word store one word, and no
flag; the pointer steps by 1 or 2 as @ says and its upper nine bits stay. The [BP+IM6] forms (Rd one of R1 to R4) and
the I[R@] forms do the same at the addresses of the parameters EBA_BP and EBA_I, which no source gives (decision D29,
log 39). A word access at an odd address sets AdE, makes no access and no pointer update, and enters the BREAK vector
with PC and SR saved. Rd in the pointer pair of a pointer update stops with pointerConflict (decision D17), at an odd
address too, where the order of the two rules is the model's choice (log 59). The step of a word access is the spec's
decision D28, what AdE does its decisions D18 and D23. (R381 to R393, R453) -/
def Obligations.ByteModeAccesses : Prop :=
  ∀ (w : Width) (m : PtrMode) (x y : PairReg) (rd : Reg) (im : Word) (im6 : BitVec 6) (s : State),
    Memory.wf s.mem = true →
    let e : BitVec 23 := specPairAddr w m x s
    let eI : BitVec 23 := Config.ebaI s x m
    let eBp (rd? : Option Word) : BitVec 23 := Config.ebaBp (s.reg .bp) rd? s.ss im6
    let eR : BitVec 23 := eBp (some (s.reg (pairLow y)))
    let aligned (a : BitVec 23) : Prop := w = .byte ∨ a.getLsbD 0 = false
    let apart : Prop := m = .keep ∨ (rd ≠ pairLow x ∧ rd ≠ pairHigh x)
    let still (t u : State) : Prop := u = t
    (apart →
      (aligned e → ByteLoadDone (exec13 (.loadInd w rd m x) s) w e rd (PairMoved w m x) s ∧
        ByteStoreDone (exec13 (.storeInd w m x rd) s) w e (s.reg rd) (PairMoved w m x) s) ∧
      (aligned eI → ByteLoadDone (exec13 (.loadIdx w rd m x) s) w eI rd (PairMoved w m x) s ∧
        ByteStoreDone (exec13 (.storeIdx w m x rd) s) w eI (s.reg rd) (PairMoved w m x) s) ∧
      (¬ aligned e → AdeDone (exec13 (.loadInd w rd m x) s) s ∧ AdeDone (exec13 (.storeInd w m x rd) s) s) ∧
      (¬ aligned eI → AdeDone (exec13 (.loadIdx w rd m x) s) s ∧ AdeDone (exec13 (.storeIdx w m x rd) s) s)) ∧
    (¬ apart → ∀ i : Instr13, i ∈ [.loadInd w rd m x, .storeInd w m x rd, .loadIdx w rd m x, .storeIdx w m x rd] →
      exec13 i s = .refused .pointerConflict) ∧
    (aligned e → ByteStoreDone (exec13 (.storeIndImm w m x im) s) w e im (PairMoved w m x) s) ∧
    (¬ aligned e → AdeDone (exec13 (.storeIndImm w m x im) s) s) ∧
    (aligned eI → ByteStoreDone (exec13 (.storeIdxImm w m x im) s) w eI im (PairMoved w m x) s) ∧
    (¬ aligned eI → AdeDone (exec13 (.storeIdxImm w m x im) s) s) ∧
    (aligned eR → ByteLoadDone (exec13 (.loadBp w y im6) s) w eR (pairLow y) still s ∧
      ByteStoreDone (exec13 (.storeBp w im6 y) s) w eR (s.reg (pairLow y)) still s) ∧
    (¬ aligned eR → AdeDone (exec13 (.loadBp w y im6) s) s ∧ AdeDone (exec13 (.storeBp w im6 y) s) s) ∧
    (aligned (eBp none) → ByteStoreDone (exec13 (.storeBpImm w im6 im) s) w (eBp none) im still s) ∧
    (¬ aligned (eBp none) → AdeDone (exec13 (.storeBpImm w im6 im) s) s)
end

