-- ==== Sys2Proof/Laws/Memory.lean ====
section
/-! SUPPORT. The laws of memory: what a read sees after a write, and that every write keeps the canonical form. -/

namespace Sys2Proof.Laws

open Sys2Proof Sys2Proof.Machine

/-- A listed key is not below the bound of the canonical form. -/
theorem readByte_below (m : Memory) (lo k : Nat) (h : Memory.wfFrom lo m = true) (hk : k < lo) :
    Memory.readByte m k = Memory.blank := by
  induction m generalizing lo with
  | nil => rfl
  | cons c t ih =>
    obtain ⟨a, b⟩ := c
    simp only [Memory.wfFrom, Bool.and_eq_true, decide_eq_true_eq] at h
    have hne : a ≠ k := by omega
    simp only [Memory.readByte, hne, if_false]
    exact ih (a + 1) h.2 (by omega)

/-- A weaker bound. -/
theorem wfFrom_mono (m : Memory) (lo lo' : Nat) (h : Memory.wfFrom lo m = true) (hl : lo' ≤ lo) :
    Memory.wfFrom lo' m = true := by
  cases m with
  | nil => rfl
  | cons c t =>
    obtain ⟨a, b⟩ := c
    simp only [Memory.wfFrom, Bool.and_eq_true, decide_eq_true_eq] at h ⊢
    exact ⟨⟨⟨by omega, h.1.1.2⟩, h.1.2⟩, h.2⟩

/-- A write keeps the canonical form. -/
theorem writeByte_wfFrom (m : Memory) (lo k : Nat) (v : BitVec 8) (h : Memory.wfFrom lo m = true) (hk : lo ≤ k)
    (hs : k < 2 ^ 23) : Memory.wfFrom lo (Memory.writeByte m k v) = true := by
  induction m generalizing lo with
  | nil =>
    by_cases hv : v = Memory.blank
    · simp [Memory.writeByte, hv, Memory.wfFrom]
    · simp only [Memory.writeByte, hv, if_false, Memory.wfFrom, Bool.and_true, Bool.and_eq_true, decide_eq_true_eq]
      exact ⟨⟨hk, hs⟩, hv⟩
  | cons c t ih =>
    obtain ⟨a, b⟩ := c
    have h' := h
    simp only [Memory.wfFrom, Bool.and_eq_true, decide_eq_true_eq] at h
    unfold Memory.writeByte
    split_ifs with h1 h2 h3 h4
    · simp only [Memory.wfFrom, Bool.and_eq_true, decide_eq_true_eq]
      exact ⟨h.1, ih (a + 1) h.2 (by omega)⟩
    · exact wfFrom_mono t (a + 1) lo h.2 (by omega)
    · simp only [Memory.wfFrom, Bool.and_eq_true, decide_eq_true_eq]
      exact ⟨⟨⟨hk, hs⟩, h3⟩, wfFrom_mono t (a + 1) (k + 1) h.2 (by omega)⟩
    · exact h'
    · simp only [Memory.wfFrom, Bool.and_eq_true, decide_eq_true_eq]
      exact ⟨⟨⟨hk, hs⟩, h4⟩, ⟨⟨by omega, h.1.1.2⟩, h.1.2⟩, h.2⟩

/-- A byte write keeps the canonical form. -/
theorem writeByte_wf (m : Memory) (k : Nat) (v : BitVec 8) (h : Memory.wf m = true) (hs : k < 2 ^ 23) :
    Memory.wf (Memory.writeByte m k v) = true := writeByte_wfFrom m 0 k v h (Nat.zero_le k) hs

/-- A word write keeps the canonical form. -/
theorem writeWord_wf (m : Memory) (a : Addr) (v : Word) (h : Memory.wf m = true) :
    Memory.wf (Memory.writeWord m a v) = true := by
  have ha := a.isLt
  exact writeByte_wf _ _ _ (writeByte_wf _ _ _ h (by omega)) (by omega)

/-- Reading the byte just written, in a canonical memory. -/
theorem readByte_writeByte_same (m : Memory) (lo k : Nat) (v : BitVec 8) (h : Memory.wfFrom lo m = true) :
    Memory.readByte (Memory.writeByte m k v) k = v := by
  induction m generalizing lo with
  | nil => by_cases hv : v = Memory.blank <;> simp [Memory.writeByte, Memory.readByte, hv]
  | cons c t ih =>
    obtain ⟨a, b⟩ := c
    simp only [Memory.wfFrom, Bool.and_eq_true, decide_eq_true_eq] at h
    unfold Memory.writeByte
    split_ifs with h1 h2 h3 h4
    · have hne : a ≠ k := by omega
      simp only [Memory.readByte, hne, if_false]
      exact ih (a + 1) h.2
    · rw [h3]
      exact readByte_below t (a + 1) k h.2 (by omega)
    · simp [Memory.readByte]
    · rw [h4]
      simp only [Memory.readByte, h2, if_false]
      exact readByte_below t (a + 1) k h.2 (by omega)
    · simp [Memory.readByte]

/-- Reading another byte than the one written. -/
theorem readByte_writeByte_other (m : Memory) (k j : Nat) (v : BitVec 8) (hj : j ≠ k) :
    Memory.readByte (Memory.writeByte m k v) j = Memory.readByte m j := by
  induction m with
  | nil =>
    by_cases hv : v = Memory.blank
    · simp [Memory.writeByte, hv]
    · simp [Memory.writeByte, hv, Memory.readByte, Ne.symm hj]
  | cons c t ih =>
    obtain ⟨a, b⟩ := c
    unfold Memory.writeByte
    split_ifs with h1 h2 h3 h4
    · simp only [Memory.readByte, ih]
    · simp only [Memory.readByte, show a ≠ j by omega, if_false]
    · simp only [Memory.readByte, Ne.symm hj, if_false, show a ≠ j by omega]
    · rfl
    · simp only [Memory.readByte, Ne.symm hj, if_false]

/-- Reading the word just written, in a canonical memory (R70). -/
theorem readWord_writeWord_same (m : Memory) (a : Addr) (v : Word) (h : Memory.wf m = true) :
    Memory.readWord (Memory.writeWord m a v) a = v := by
  have ha := a.isLt
  have h1 : Memory.wf (Memory.writeByte m (2 * a.toNat) (v.extractLsb' 0 8)) = true := writeByte_wf _ _ _ h (by omega)
  unfold Memory.readWord Memory.writeWord
  rw [readByte_writeByte_same _ 0 _ _ h1, readByte_writeByte_other _ _ _ _ (by omega),
    readByte_writeByte_same _ 0 _ _ h]
  ext i hi
  simp only [BitVec.getElem_append, BitVec.getElem_extractLsb']
  split <;> rename_i hlt
  · simp [BitVec.getLsbD_eq_getElem hi]
  · have : 8 + (i - 8) = i := by omega
    simp [this, BitVec.getLsbD_eq_getElem hi]

/-- Reading another word than the one written. -/
theorem readWord_writeWord_other (m : Memory) (a b : Addr) (v : Word) (hb : b ≠ a) :
    Memory.readWord (Memory.writeWord m a v) b = Memory.readWord m b := by
  have hn : b.toNat ≠ a.toNat := fun e => hb (BitVec.eq_of_toNat_eq e)
  unfold Memory.readWord Memory.writeWord
  rw [readByte_writeByte_other _ _ _ _ (by omega), readByte_writeByte_other _ _ _ _ (by omega),
    readByte_writeByte_other _ _ _ _ (by omega), readByte_writeByte_other _ _ _ _ (by omega)]

end Sys2Proof.Laws
end

