-- ==== Sys2Proof/Laws/State.lean ====
section
/-! SUPPORT. What each named operation leaves: one lemma per field and operation, and what a register reads after a write.
The fields an operation changes have their own lemma where the new value is short. -/

namespace Sys2Proof.Laws

open Sys2Proof Sys2Proof.Machine

@[simp] theorem dmaPoint_cfg (s : State) : s.dmaPoint.cfg = s.cfg := rfl

@[simp] theorem dmaPoint_pins (s : State) : s.dmaPoint.pins = s.pins := rfl

@[simp] theorem dmaPoint_regs (s : State) : s.dmaPoint.regs = s.regs := rfl

@[simp] theorem dmaPoint_status (s : State) : s.dmaPoint.status = s.status := rfl

@[simp] theorem dmaPoint_pc (s : State) : s.dmaPoint.pc = s.pc := rfl

@[simp] theorem dmaPoint_flags (s : State) : s.dmaPoint.flags = s.flags := rfl

@[simp] theorem dmaPoint_sb (s : State) : s.dmaPoint.sb = s.sb := rfl

@[simp] theorem dmaPoint_ss (s : State) : s.dmaPoint.ss = s.ss := rfl

@[simp] theorem dmaPoint_mds (s : State) : s.dmaPoint.mds = s.mds := rfl

@[simp] theorem dmaPoint_svc (s : State) : s.dmaPoint.svc = s.svc := rfl

@[simp] theorem dmaPoint_dmack (s : State) : s.dmaPoint.dmack = s.dmack := rfl

@[simp] theorem dmaPoint_hold (s : State) : s.dmaPoint.hold = s.hold := rfl

@[simp] theorem dmaPoint_freeIdx (s : State) : s.dmaPoint.freeIdx = s.freeIdx := rfl

@[simp] theorem noteRead_cfg (s : State) (a : Addr) : (s.noteRead a).cfg = s.cfg := rfl

@[simp] theorem noteRead_pins (s : State) (a : Addr) : (s.noteRead a).pins = s.pins := rfl

@[simp] theorem noteRead_regs (s : State) (a : Addr) : (s.noteRead a).regs = s.regs := rfl

@[simp] theorem noteRead_status (s : State) (a : Addr) : (s.noteRead a).status = s.status := rfl

@[simp] theorem noteRead_pc (s : State) (a : Addr) : (s.noteRead a).pc = s.pc := rfl

@[simp] theorem noteRead_flags (s : State) (a : Addr) : (s.noteRead a).flags = s.flags := rfl

@[simp] theorem noteRead_sb (s : State) (a : Addr) : (s.noteRead a).sb = s.sb := rfl

@[simp] theorem noteRead_ss (s : State) (a : Addr) : (s.noteRead a).ss = s.ss := rfl

@[simp] theorem noteRead_mds (s : State) (a : Addr) : (s.noteRead a).mds = s.mds := rfl

@[simp] theorem noteRead_svc (s : State) (a : Addr) : (s.noteRead a).svc = s.svc := rfl

@[simp] theorem noteRead_dmack (s : State) (a : Addr) : (s.noteRead a).dmack = s.dmack := rfl

@[simp] theorem noteRead_hold (s : State) (a : Addr) : (s.noteRead a).hold = s.hold := rfl

@[simp] theorem noteRead_dma (s : State) (a : Addr) : (s.noteRead a).dma = s.dma := rfl

@[simp] theorem noteRead_freeIdx (s : State) (a : Addr) : (s.noteRead a).freeIdx = s.freeIdx := rfl

@[simp] theorem noteRead_mem (s : State) (a : Addr) : (s.noteRead a).mem = s.mem := rfl

@[simp] theorem putWord_cfg (s : State) (a : Addr) (v : Word) : (s.putWord a v).cfg = s.cfg := rfl

@[simp] theorem putWord_pins (s : State) (a : Addr) (v : Word) : (s.putWord a v).pins = s.pins := rfl

@[simp] theorem putWord_regs (s : State) (a : Addr) (v : Word) : (s.putWord a v).regs = s.regs := rfl

@[simp] theorem putWord_status (s : State) (a : Addr) (v : Word) : (s.putWord a v).status = s.status := rfl

@[simp] theorem putWord_pc (s : State) (a : Addr) (v : Word) : (s.putWord a v).pc = s.pc := rfl

@[simp] theorem putWord_flags (s : State) (a : Addr) (v : Word) : (s.putWord a v).flags = s.flags := rfl

@[simp] theorem putWord_sb (s : State) (a : Addr) (v : Word) : (s.putWord a v).sb = s.sb := rfl

@[simp] theorem putWord_ss (s : State) (a : Addr) (v : Word) : (s.putWord a v).ss = s.ss := rfl

@[simp] theorem putWord_mds (s : State) (a : Addr) (v : Word) : (s.putWord a v).mds = s.mds := rfl

@[simp] theorem putWord_svc (s : State) (a : Addr) (v : Word) : (s.putWord a v).svc = s.svc := rfl

@[simp] theorem putWord_dmack (s : State) (a : Addr) (v : Word) : (s.putWord a v).dmack = s.dmack := rfl

@[simp] theorem putWord_hold (s : State) (a : Addr) (v : Word) : (s.putWord a v).hold = s.hold := rfl

@[simp] theorem putWord_dma (s : State) (a : Addr) (v : Word) : (s.putWord a v).dma = s.dma := rfl

@[simp] theorem putWord_freeIdx (s : State) (a : Addr) (v : Word) : (s.putWord a v).freeIdx = s.freeIdx := rfl

@[simp] theorem putByte_cfg (s : State) (k : BitVec 23) (v : BitVec 8) : (s.putByte k v).cfg = s.cfg := rfl

@[simp] theorem putByte_pins (s : State) (k : BitVec 23) (v : BitVec 8) : (s.putByte k v).pins = s.pins := rfl

@[simp] theorem putByte_regs (s : State) (k : BitVec 23) (v : BitVec 8) : (s.putByte k v).regs = s.regs := rfl

@[simp] theorem putByte_status (s : State) (k : BitVec 23) (v : BitVec 8) : (s.putByte k v).status = s.status := rfl

@[simp] theorem putByte_pc (s : State) (k : BitVec 23) (v : BitVec 8) : (s.putByte k v).pc = s.pc := rfl

@[simp] theorem putByte_flags (s : State) (k : BitVec 23) (v : BitVec 8) : (s.putByte k v).flags = s.flags := rfl

@[simp] theorem putByte_sb (s : State) (k : BitVec 23) (v : BitVec 8) : (s.putByte k v).sb = s.sb := rfl

@[simp] theorem putByte_ss (s : State) (k : BitVec 23) (v : BitVec 8) : (s.putByte k v).ss = s.ss := rfl

@[simp] theorem putByte_mds (s : State) (k : BitVec 23) (v : BitVec 8) : (s.putByte k v).mds = s.mds := rfl

@[simp] theorem putByte_svc (s : State) (k : BitVec 23) (v : BitVec 8) : (s.putByte k v).svc = s.svc := rfl

@[simp] theorem putByte_dmack (s : State) (k : BitVec 23) (v : BitVec 8) : (s.putByte k v).dmack = s.dmack := rfl

@[simp] theorem putByte_hold (s : State) (k : BitVec 23) (v : BitVec 8) : (s.putByte k v).hold = s.hold := rfl

@[simp] theorem putByte_dma (s : State) (k : BitVec 23) (v : BitVec 8) : (s.putByte k v).dma = s.dma := rfl

@[simp] theorem putByte_freeIdx (s : State) (k : BitVec 23) (v : BitVec 8) : (s.putByte k v).freeIdx = s.freeIdx := rfl

@[simp] theorem load_cfg (s : State) (a : Addr) : (s.load a).2.cfg = s.cfg := rfl

@[simp] theorem load_pins (s : State) (a : Addr) : (s.load a).2.pins = s.pins := rfl

@[simp] theorem load_regs (s : State) (a : Addr) : (s.load a).2.regs = s.regs := rfl

@[simp] theorem load_status (s : State) (a : Addr) : (s.load a).2.status = s.status := rfl

@[simp] theorem load_pc (s : State) (a : Addr) : (s.load a).2.pc = s.pc := rfl

@[simp] theorem load_flags (s : State) (a : Addr) : (s.load a).2.flags = s.flags := rfl

@[simp] theorem load_sb (s : State) (a : Addr) : (s.load a).2.sb = s.sb := rfl

@[simp] theorem load_ss (s : State) (a : Addr) : (s.load a).2.ss = s.ss := rfl

@[simp] theorem load_mds (s : State) (a : Addr) : (s.load a).2.mds = s.mds := rfl

@[simp] theorem load_svc (s : State) (a : Addr) : (s.load a).2.svc = s.svc := rfl

@[simp] theorem load_dmack (s : State) (a : Addr) : (s.load a).2.dmack = s.dmack := rfl

@[simp] theorem load_hold (s : State) (a : Addr) : (s.load a).2.hold = s.hold := rfl

@[simp] theorem load_freeIdx (s : State) (a : Addr) : (s.load a).2.freeIdx = s.freeIdx := rfl

@[simp] theorem loadByte_cfg (s : State) (k : BitVec 23) : (s.loadByte k).2.cfg = s.cfg := rfl

@[simp] theorem loadByte_pins (s : State) (k : BitVec 23) : (s.loadByte k).2.pins = s.pins := rfl

@[simp] theorem loadByte_regs (s : State) (k : BitVec 23) : (s.loadByte k).2.regs = s.regs := rfl

@[simp] theorem loadByte_status (s : State) (k : BitVec 23) : (s.loadByte k).2.status = s.status := rfl

@[simp] theorem loadByte_pc (s : State) (k : BitVec 23) : (s.loadByte k).2.pc = s.pc := rfl

@[simp] theorem loadByte_flags (s : State) (k : BitVec 23) : (s.loadByte k).2.flags = s.flags := rfl

@[simp] theorem loadByte_sb (s : State) (k : BitVec 23) : (s.loadByte k).2.sb = s.sb := rfl

@[simp] theorem loadByte_ss (s : State) (k : BitVec 23) : (s.loadByte k).2.ss = s.ss := rfl

@[simp] theorem loadByte_mds (s : State) (k : BitVec 23) : (s.loadByte k).2.mds = s.mds := rfl

@[simp] theorem loadByte_svc (s : State) (k : BitVec 23) : (s.loadByte k).2.svc = s.svc := rfl

@[simp] theorem loadByte_dmack (s : State) (k : BitVec 23) : (s.loadByte k).2.dmack = s.dmack := rfl

@[simp] theorem loadByte_hold (s : State) (k : BitVec 23) : (s.loadByte k).2.hold = s.hold := rfl

@[simp] theorem loadByte_freeIdx (s : State) (k : BitVec 23) : (s.loadByte k).2.freeIdx = s.freeIdx := rfl

@[simp] theorem storeWord_cfg (s : State) (a : Addr) (v : Word) : (s.storeWord a v).cfg = s.cfg := rfl

@[simp] theorem storeWord_pins (s : State) (a : Addr) (v : Word) : (s.storeWord a v).pins = s.pins := rfl

@[simp] theorem storeWord_regs (s : State) (a : Addr) (v : Word) : (s.storeWord a v).regs = s.regs := rfl

@[simp] theorem storeWord_status (s : State) (a : Addr) (v : Word) : (s.storeWord a v).status = s.status := rfl

@[simp] theorem storeWord_pc (s : State) (a : Addr) (v : Word) : (s.storeWord a v).pc = s.pc := rfl

@[simp] theorem storeWord_flags (s : State) (a : Addr) (v : Word) : (s.storeWord a v).flags = s.flags := rfl

@[simp] theorem storeWord_sb (s : State) (a : Addr) (v : Word) : (s.storeWord a v).sb = s.sb := rfl

@[simp] theorem storeWord_ss (s : State) (a : Addr) (v : Word) : (s.storeWord a v).ss = s.ss := rfl

@[simp] theorem storeWord_mds (s : State) (a : Addr) (v : Word) : (s.storeWord a v).mds = s.mds := rfl

@[simp] theorem storeWord_svc (s : State) (a : Addr) (v : Word) : (s.storeWord a v).svc = s.svc := rfl

@[simp] theorem storeWord_dmack (s : State) (a : Addr) (v : Word) : (s.storeWord a v).dmack = s.dmack := rfl

@[simp] theorem storeWord_hold (s : State) (a : Addr) (v : Word) : (s.storeWord a v).hold = s.hold := rfl

@[simp] theorem storeWord_freeIdx (s : State) (a : Addr) (v : Word) : (s.storeWord a v).freeIdx = s.freeIdx := rfl

@[simp] theorem storeByte_cfg (s : State) (k : BitVec 23) (v : BitVec 8) : (s.storeByte k v).cfg = s.cfg := rfl

@[simp] theorem storeByte_pins (s : State) (k : BitVec 23) (v : BitVec 8) : (s.storeByte k v).pins = s.pins := rfl

@[simp] theorem storeByte_regs (s : State) (k : BitVec 23) (v : BitVec 8) : (s.storeByte k v).regs = s.regs := rfl

@[simp] theorem storeByte_status (s : State) (k : BitVec 23) (v : BitVec 8) : (s.storeByte k v).status = s.status := rfl

@[simp] theorem storeByte_pc (s : State) (k : BitVec 23) (v : BitVec 8) : (s.storeByte k v).pc = s.pc := rfl

@[simp] theorem storeByte_flags (s : State) (k : BitVec 23) (v : BitVec 8) : (s.storeByte k v).flags = s.flags := rfl

@[simp] theorem storeByte_sb (s : State) (k : BitVec 23) (v : BitVec 8) : (s.storeByte k v).sb = s.sb := rfl

@[simp] theorem storeByte_ss (s : State) (k : BitVec 23) (v : BitVec 8) : (s.storeByte k v).ss = s.ss := rfl

@[simp] theorem storeByte_mds (s : State) (k : BitVec 23) (v : BitVec 8) : (s.storeByte k v).mds = s.mds := rfl

@[simp] theorem storeByte_svc (s : State) (k : BitVec 23) (v : BitVec 8) : (s.storeByte k v).svc = s.svc := rfl

@[simp] theorem storeByte_dmack (s : State) (k : BitVec 23) (v : BitVec 8) : (s.storeByte k v).dmack = s.dmack := rfl

@[simp] theorem storeByte_hold (s : State) (k : BitVec 23) (v : BitVec 8) : (s.storeByte k v).hold = s.hold := rfl

@[simp] theorem storeByte_freeIdx (s : State) (k : BitVec 23) (v : BitVec 8) : (s.storeByte k v).freeIdx = s.freeIdx := rfl

@[simp] theorem advance_cfg (s : State) (k : Nat) : (s.advance k).cfg = s.cfg := rfl

@[simp] theorem advance_pins (s : State) (k : Nat) : (s.advance k).pins = s.pins := rfl

@[simp] theorem advance_regs (s : State) (k : Nat) : (s.advance k).regs = s.regs := rfl

@[simp] theorem advance_flags (s : State) (k : Nat) : (s.advance k).flags = s.flags := rfl

@[simp] theorem advance_sb (s : State) (k : Nat) : (s.advance k).sb = s.sb := rfl

@[simp] theorem advance_ss (s : State) (k : Nat) : (s.advance k).ss = s.ss := rfl

@[simp] theorem advance_mds (s : State) (k : Nat) : (s.advance k).mds = s.mds := rfl

@[simp] theorem advance_svc (s : State) (k : Nat) : (s.advance k).svc = s.svc := rfl

@[simp] theorem advance_dmack (s : State) (k : Nat) : (s.advance k).dmack = s.dmack := rfl

@[simp] theorem advance_hold (s : State) (k : Nat) : (s.advance k).hold = s.hold := rfl

@[simp] theorem advance_dma (s : State) (k : Nat) : (s.advance k).dma = s.dma := rfl

@[simp] theorem advance_devLog (s : State) (k : Nat) : (s.advance k).devLog = s.devLog := rfl

@[simp] theorem advance_freeIdx (s : State) (k : Nat) : (s.advance k).freeIdx = s.freeIdx := rfl

@[simp] theorem advance_mem (s : State) (k : Nat) : (s.advance k).mem = s.mem := rfl

@[simp] theorem jump_cfg (s : State) (t : Addr) : (s.jump t).cfg = s.cfg := rfl

@[simp] theorem jump_pins (s : State) (t : Addr) : (s.jump t).pins = s.pins := rfl

@[simp] theorem jump_regs (s : State) (t : Addr) : (s.jump t).regs = s.regs := rfl

@[simp] theorem jump_flags (s : State) (t : Addr) : (s.jump t).flags = s.flags := rfl

@[simp] theorem jump_sb (s : State) (t : Addr) : (s.jump t).sb = s.sb := rfl

@[simp] theorem jump_ss (s : State) (t : Addr) : (s.jump t).ss = s.ss := rfl

@[simp] theorem jump_mds (s : State) (t : Addr) : (s.jump t).mds = s.mds := rfl

@[simp] theorem jump_svc (s : State) (t : Addr) : (s.jump t).svc = s.svc := rfl

@[simp] theorem jump_dmack (s : State) (t : Addr) : (s.jump t).dmack = s.dmack := rfl

@[simp] theorem jump_hold (s : State) (t : Addr) : (s.jump t).hold = s.hold := rfl

@[simp] theorem jump_dma (s : State) (t : Addr) : (s.jump t).dma = s.dma := rfl

@[simp] theorem jump_devLog (s : State) (t : Addr) : (s.jump t).devLog = s.devLog := rfl

@[simp] theorem jump_freeIdx (s : State) (t : Addr) : (s.jump t).freeIdx = s.freeIdx := rfl

@[simp] theorem jump_mem (s : State) (t : Addr) : (s.jump t).mem = s.mem := rfl

@[simp] theorem setSr_cfg (s : State) (w : Word) : (s.setSr w).cfg = s.cfg := rfl

@[simp] theorem setSr_pins (s : State) (w : Word) : (s.setSr w).pins = s.pins := rfl

@[simp] theorem setSr_regs (s : State) (w : Word) : (s.setSr w).regs = s.regs := rfl

@[simp] theorem setSr_pc (s : State) (w : Word) : (s.setSr w).pc = s.pc := rfl

@[simp] theorem setSr_flags (s : State) (w : Word) : (s.setSr w).flags = s.flags := rfl

@[simp] theorem setSr_sb (s : State) (w : Word) : (s.setSr w).sb = s.sb := rfl

@[simp] theorem setSr_ss (s : State) (w : Word) : (s.setSr w).ss = s.ss := rfl

@[simp] theorem setSr_mds (s : State) (w : Word) : (s.setSr w).mds = s.mds := rfl

@[simp] theorem setSr_svc (s : State) (w : Word) : (s.setSr w).svc = s.svc := rfl

@[simp] theorem setSr_dmack (s : State) (w : Word) : (s.setSr w).dmack = s.dmack := rfl

@[simp] theorem setSr_hold (s : State) (w : Word) : (s.setSr w).hold = s.hold := rfl

@[simp] theorem setSr_dma (s : State) (w : Word) : (s.setSr w).dma = s.dma := rfl

@[simp] theorem setSr_devLog (s : State) (w : Word) : (s.setSr w).devLog = s.devLog := rfl

@[simp] theorem setSr_freeIdx (s : State) (w : Word) : (s.setSr w).freeIdx = s.freeIdx := rfl

@[simp] theorem setSr_mem (s : State) (w : Word) : (s.setSr w).mem = s.mem := rfl

@[simp] theorem setDs_cfg (s : State) (p : Page) : (s.setDs p).cfg = s.cfg := rfl

@[simp] theorem setDs_pins (s : State) (p : Page) : (s.setDs p).pins = s.pins := rfl

@[simp] theorem setDs_regs (s : State) (p : Page) : (s.setDs p).regs = s.regs := rfl

@[simp] theorem setDs_pc (s : State) (p : Page) : (s.setDs p).pc = s.pc := rfl

@[simp] theorem setDs_flags (s : State) (p : Page) : (s.setDs p).flags = s.flags := rfl

@[simp] theorem setDs_sb (s : State) (p : Page) : (s.setDs p).sb = s.sb := rfl

@[simp] theorem setDs_ss (s : State) (p : Page) : (s.setDs p).ss = s.ss := rfl

@[simp] theorem setDs_mds (s : State) (p : Page) : (s.setDs p).mds = s.mds := rfl

@[simp] theorem setDs_svc (s : State) (p : Page) : (s.setDs p).svc = s.svc := rfl

@[simp] theorem setDs_dmack (s : State) (p : Page) : (s.setDs p).dmack = s.dmack := rfl

@[simp] theorem setDs_hold (s : State) (p : Page) : (s.setDs p).hold = s.hold := rfl

@[simp] theorem setDs_dma (s : State) (p : Page) : (s.setDs p).dma = s.dma := rfl

@[simp] theorem setDs_devLog (s : State) (p : Page) : (s.setDs p).devLog = s.devLog := rfl

@[simp] theorem setDs_freeIdx (s : State) (p : Page) : (s.setDs p).freeIdx = s.freeIdx := rfl

@[simp] theorem setDs_mem (s : State) (p : Page) : (s.setDs p).mem = s.mem := rfl

@[simp] theorem setShiftBuf_cfg (s : State) (v : BitVec 4) : (s.setShiftBuf v).cfg = s.cfg := rfl

@[simp] theorem setShiftBuf_pins (s : State) (v : BitVec 4) : (s.setShiftBuf v).pins = s.pins := rfl

@[simp] theorem setShiftBuf_regs (s : State) (v : BitVec 4) : (s.setShiftBuf v).regs = s.regs := rfl

@[simp] theorem setShiftBuf_status (s : State) (v : BitVec 4) : (s.setShiftBuf v).status = s.status := rfl

@[simp] theorem setShiftBuf_pc (s : State) (v : BitVec 4) : (s.setShiftBuf v).pc = s.pc := rfl

@[simp] theorem setShiftBuf_flags (s : State) (v : BitVec 4) : (s.setShiftBuf v).flags = s.flags := rfl

@[simp] theorem setShiftBuf_ss (s : State) (v : BitVec 4) : (s.setShiftBuf v).ss = s.ss := rfl

@[simp] theorem setShiftBuf_mds (s : State) (v : BitVec 4) : (s.setShiftBuf v).mds = s.mds := rfl

@[simp] theorem setShiftBuf_svc (s : State) (v : BitVec 4) : (s.setShiftBuf v).svc = s.svc := rfl

@[simp] theorem setShiftBuf_dmack (s : State) (v : BitVec 4) : (s.setShiftBuf v).dmack = s.dmack := rfl

@[simp] theorem setShiftBuf_hold (s : State) (v : BitVec 4) : (s.setShiftBuf v).hold = s.hold := rfl

@[simp] theorem setShiftBuf_dma (s : State) (v : BitVec 4) : (s.setShiftBuf v).dma = s.dma := rfl

@[simp] theorem setShiftBuf_devLog (s : State) (v : BitVec 4) : (s.setShiftBuf v).devLog = s.devLog := rfl

@[simp] theorem setShiftBuf_freeIdx (s : State) (v : BitVec 4) : (s.setShiftBuf v).freeIdx = s.freeIdx := rfl

@[simp] theorem setShiftBuf_mem (s : State) (v : BitVec 4) : (s.setShiftBuf v).mem = s.mem := rfl

@[simp] theorem setFr_cfg (s : State) (w : Word) : (s.setFr w).cfg = s.cfg := rfl

@[simp] theorem setFr_pins (s : State) (w : Word) : (s.setFr w).pins = s.pins := rfl

@[simp] theorem setFr_regs (s : State) (w : Word) : (s.setFr w).regs = s.regs := rfl

@[simp] theorem setFr_status (s : State) (w : Word) : (s.setFr w).status = s.status := rfl

@[simp] theorem setFr_pc (s : State) (w : Word) : (s.setFr w).pc = s.pc := rfl

@[simp] theorem setFr_ss (s : State) (w : Word) : (s.setFr w).ss = s.ss := rfl

@[simp] theorem setFr_mds (s : State) (w : Word) : (s.setFr w).mds = s.mds := rfl

@[simp] theorem setFr_svc (s : State) (w : Word) : (s.setFr w).svc = s.svc := rfl

@[simp] theorem setFr_dmack (s : State) (w : Word) : (s.setFr w).dmack = s.dmack := rfl

@[simp] theorem setFr_hold (s : State) (w : Word) : (s.setFr w).hold = s.hold := rfl

@[simp] theorem setFr_dma (s : State) (w : Word) : (s.setFr w).dma = s.dma := rfl

@[simp] theorem setFr_devLog (s : State) (w : Word) : (s.setFr w).devLog = s.devLog := rfl

@[simp] theorem setFr_freeIdx (s : State) (w : Word) : (s.setFr w).freeIdx = s.freeIdx := rfl

@[simp] theorem setFr_mem (s : State) (w : Word) : (s.setFr w).mem = s.mem := rfl

@[simp] theorem freeShiftBuf_cfg (s : State) : s.freeShiftBuf.cfg = s.cfg := rfl

@[simp] theorem freeShiftBuf_pins (s : State) : s.freeShiftBuf.pins = s.pins := rfl

@[simp] theorem freeShiftBuf_regs (s : State) : s.freeShiftBuf.regs = s.regs := rfl

@[simp] theorem freeShiftBuf_status (s : State) : s.freeShiftBuf.status = s.status := rfl

@[simp] theorem freeShiftBuf_pc (s : State) : s.freeShiftBuf.pc = s.pc := rfl

@[simp] theorem freeShiftBuf_flags (s : State) : s.freeShiftBuf.flags = s.flags := rfl

@[simp] theorem freeShiftBuf_ss (s : State) : s.freeShiftBuf.ss = s.ss := rfl

@[simp] theorem freeShiftBuf_mds (s : State) : s.freeShiftBuf.mds = s.mds := rfl

@[simp] theorem freeShiftBuf_svc (s : State) : s.freeShiftBuf.svc = s.svc := rfl

@[simp] theorem freeShiftBuf_dmack (s : State) : s.freeShiftBuf.dmack = s.dmack := rfl

@[simp] theorem freeShiftBuf_hold (s : State) : s.freeShiftBuf.hold = s.hold := rfl

@[simp] theorem freeShiftBuf_dma (s : State) : s.freeShiftBuf.dma = s.dma := rfl

@[simp] theorem freeShiftBuf_devLog (s : State) : s.freeShiftBuf.devLog = s.devLog := rfl

@[simp] theorem freeShiftBuf_mem (s : State) : s.freeShiftBuf.mem = s.mem := rfl

@[simp] theorem setMds_cfg (s : State) (w : Word) : (s.setMds w).cfg = s.cfg := rfl

@[simp] theorem setMds_pins (s : State) (w : Word) : (s.setMds w).pins = s.pins := rfl

@[simp] theorem setMds_regs (s : State) (w : Word) : (s.setMds w).regs = s.regs := rfl

@[simp] theorem setMds_status (s : State) (w : Word) : (s.setMds w).status = s.status := rfl

@[simp] theorem setMds_pc (s : State) (w : Word) : (s.setMds w).pc = s.pc := rfl

@[simp] theorem setMds_flags (s : State) (w : Word) : (s.setMds w).flags = s.flags := rfl

@[simp] theorem setMds_sb (s : State) (w : Word) : (s.setMds w).sb = s.sb := rfl

@[simp] theorem setMds_ss (s : State) (w : Word) : (s.setMds w).ss = s.ss := rfl

@[simp] theorem setMds_svc (s : State) (w : Word) : (s.setMds w).svc = s.svc := rfl

@[simp] theorem setMds_dmack (s : State) (w : Word) : (s.setMds w).dmack = s.dmack := rfl

@[simp] theorem setMds_hold (s : State) (w : Word) : (s.setMds w).hold = s.hold := rfl

@[simp] theorem setMds_dma (s : State) (w : Word) : (s.setMds w).dma = s.dma := rfl

@[simp] theorem setMds_devLog (s : State) (w : Word) : (s.setMds w).devLog = s.devLog := rfl

@[simp] theorem setMds_freeIdx (s : State) (w : Word) : (s.setMds w).freeIdx = s.freeIdx := rfl

@[simp] theorem setMds_mem (s : State) (w : Word) : (s.setMds w).mem = s.mem := rfl

@[simp] theorem setNZ_cfg (s : State) (v : Word) : (s.setNZ v).cfg = s.cfg := rfl

@[simp] theorem setNZ_pins (s : State) (v : Word) : (s.setNZ v).pins = s.pins := rfl

@[simp] theorem setNZ_regs (s : State) (v : Word) : (s.setNZ v).regs = s.regs := rfl

@[simp] theorem setNZ_pc (s : State) (v : Word) : (s.setNZ v).pc = s.pc := rfl

@[simp] theorem setNZ_flags (s : State) (v : Word) : (s.setNZ v).flags = s.flags := rfl

@[simp] theorem setNZ_sb (s : State) (v : Word) : (s.setNZ v).sb = s.sb := rfl

@[simp] theorem setNZ_ss (s : State) (v : Word) : (s.setNZ v).ss = s.ss := rfl

@[simp] theorem setNZ_mds (s : State) (v : Word) : (s.setNZ v).mds = s.mds := rfl

@[simp] theorem setNZ_svc (s : State) (v : Word) : (s.setNZ v).svc = s.svc := rfl

@[simp] theorem setNZ_dmack (s : State) (v : Word) : (s.setNZ v).dmack = s.dmack := rfl

@[simp] theorem setNZ_hold (s : State) (v : Word) : (s.setNZ v).hold = s.hold := rfl

@[simp] theorem setNZ_dma (s : State) (v : Word) : (s.setNZ v).dma = s.dma := rfl

@[simp] theorem setNZ_devLog (s : State) (v : Word) : (s.setNZ v).devLog = s.devLog := rfl

@[simp] theorem setNZ_freeIdx (s : State) (v : Word) : (s.setNZ v).freeIdx = s.freeIdx := rfl

@[simp] theorem setNZ_mem (s : State) (v : Word) : (s.setNZ v).mem = s.mem := rfl

@[simp] theorem setZOfBit_cfg (s : State) (w : Word) (k : BitVec 4) : (s.setZOfBit w k).cfg = s.cfg := rfl

@[simp] theorem setZOfBit_pins (s : State) (w : Word) (k : BitVec 4) : (s.setZOfBit w k).pins = s.pins := rfl

@[simp] theorem setZOfBit_regs (s : State) (w : Word) (k : BitVec 4) : (s.setZOfBit w k).regs = s.regs := rfl

@[simp] theorem setZOfBit_pc (s : State) (w : Word) (k : BitVec 4) : (s.setZOfBit w k).pc = s.pc := rfl

@[simp] theorem setZOfBit_flags (s : State) (w : Word) (k : BitVec 4) : (s.setZOfBit w k).flags = s.flags := rfl

@[simp] theorem setZOfBit_sb (s : State) (w : Word) (k : BitVec 4) : (s.setZOfBit w k).sb = s.sb := rfl

@[simp] theorem setZOfBit_ss (s : State) (w : Word) (k : BitVec 4) : (s.setZOfBit w k).ss = s.ss := rfl

@[simp] theorem setZOfBit_mds (s : State) (w : Word) (k : BitVec 4) : (s.setZOfBit w k).mds = s.mds := rfl

@[simp] theorem setZOfBit_svc (s : State) (w : Word) (k : BitVec 4) : (s.setZOfBit w k).svc = s.svc := rfl

@[simp] theorem setZOfBit_dmack (s : State) (w : Word) (k : BitVec 4) : (s.setZOfBit w k).dmack = s.dmack := rfl

@[simp] theorem setZOfBit_hold (s : State) (w : Word) (k : BitVec 4) : (s.setZOfBit w k).hold = s.hold := rfl

@[simp] theorem setZOfBit_dma (s : State) (w : Word) (k : BitVec 4) : (s.setZOfBit w k).dma = s.dma := rfl

@[simp] theorem setZOfBit_devLog (s : State) (w : Word) (k : BitVec 4) : (s.setZOfBit w k).devLog = s.devLog := rfl

@[simp] theorem setZOfBit_freeIdx (s : State) (w : Word) (k : BitVec 4) : (s.setZOfBit w k).freeIdx = s.freeIdx := rfl

@[simp] theorem setZOfBit_mem (s : State) (w : Word) (k : BitVec 4) : (s.setZOfBit w k).mem = s.mem := rfl

@[simp] theorem setReg_cfg (s : State) (r : Reg) (v : Word) : (s.setReg r v).cfg = s.cfg := by
  cases r <;> first | rfl | (simp only [State.setReg]; split <;> rfl)

@[simp] theorem setReg_pins (s : State) (r : Reg) (v : Word) : (s.setReg r v).pins = s.pins := by
  cases r <;> first | rfl | (simp only [State.setReg]; split <;> rfl)

@[simp] theorem setReg_flags (s : State) (r : Reg) (v : Word) : (s.setReg r v).flags = s.flags := by
  cases r <;> first | rfl | (simp only [State.setReg]; split <;> rfl)

@[simp] theorem setReg_sb (s : State) (r : Reg) (v : Word) : (s.setReg r v).sb = s.sb := by
  cases r <;> first | rfl | (simp only [State.setReg]; split <;> rfl)

@[simp] theorem setReg_ss (s : State) (r : Reg) (v : Word) : (s.setReg r v).ss = s.ss := by
  cases r <;> first | rfl | (simp only [State.setReg]; split <;> rfl)

@[simp] theorem setReg_mds (s : State) (r : Reg) (v : Word) : (s.setReg r v).mds = s.mds := by
  cases r <;> first | rfl | (simp only [State.setReg]; split <;> rfl)

@[simp] theorem setReg_svc (s : State) (r : Reg) (v : Word) : (s.setReg r v).svc = s.svc := by
  cases r <;> first | rfl | (simp only [State.setReg]; split <;> rfl)

@[simp] theorem setReg_dmack (s : State) (r : Reg) (v : Word) : (s.setReg r v).dmack = s.dmack := by
  cases r <;> first | rfl | (simp only [State.setReg]; split <;> rfl)

@[simp] theorem setReg_hold (s : State) (r : Reg) (v : Word) : (s.setReg r v).hold = s.hold := by
  cases r <;> first | rfl | (simp only [State.setReg]; split <;> rfl)

@[simp] theorem setReg_dma (s : State) (r : Reg) (v : Word) : (s.setReg r v).dma = s.dma := by
  cases r <;> first | rfl | (simp only [State.setReg]; split <;> rfl)

@[simp] theorem setReg_devLog (s : State) (r : Reg) (v : Word) : (s.setReg r v).devLog = s.devLog := by
  cases r <;> first | rfl | (simp only [State.setReg]; split <;> rfl)

@[simp] theorem setReg_freeIdx (s : State) (r : Reg) (v : Word) : (s.setReg r v).freeIdx = s.freeIdx := by
  cases r <;> first | rfl | (simp only [State.setReg]; split <;> rfl)

@[simp] theorem setReg_mem (s : State) (r : Reg) (v : Word) : (s.setReg r v).mem = s.mem := by
  cases r <;> first | rfl | (simp only [State.setReg]; split <;> rfl)

@[simp] theorem setXreg_cfg (s : State) (x : XReg) (v : Word) : (s.setXreg x v).cfg = s.cfg := by cases x <;> rfl

@[simp] theorem setXreg_pins (s : State) (x : XReg) (v : Word) : (s.setXreg x v).pins = s.pins := by cases x <;> rfl

@[simp] theorem setXreg_status (s : State) (x : XReg) (v : Word) : (s.setXreg x v).status = s.status := by cases x <;> rfl

@[simp] theorem setXreg_pc (s : State) (x : XReg) (v : Word) : (s.setXreg x v).pc = s.pc := by cases x <;> rfl

@[simp] theorem setXreg_flags (s : State) (x : XReg) (v : Word) : (s.setXreg x v).flags = s.flags := by cases x <;> rfl

@[simp] theorem setXreg_sb (s : State) (x : XReg) (v : Word) : (s.setXreg x v).sb = s.sb := by cases x <;> rfl

@[simp] theorem setXreg_ss (s : State) (x : XReg) (v : Word) : (s.setXreg x v).ss = s.ss := by cases x <;> rfl

@[simp] theorem setXreg_mds (s : State) (x : XReg) (v : Word) : (s.setXreg x v).mds = s.mds := by cases x <;> rfl

@[simp] theorem setXreg_svc (s : State) (x : XReg) (v : Word) : (s.setXreg x v).svc = s.svc := by cases x <;> rfl

@[simp] theorem setXreg_dmack (s : State) (x : XReg) (v : Word) : (s.setXreg x v).dmack = s.dmack := by cases x <;> rfl

@[simp] theorem setXreg_hold (s : State) (x : XReg) (v : Word) : (s.setXreg x v).hold = s.hold := by cases x <;> rfl

@[simp] theorem setXreg_dma (s : State) (x : XReg) (v : Word) : (s.setXreg x v).dma = s.dma := by cases x <;> rfl

@[simp] theorem setXreg_devLog (s : State) (x : XReg) (v : Word) : (s.setXreg x v).devLog = s.devLog := by cases x <;> rfl

@[simp] theorem setXreg_freeIdx (s : State) (x : XReg) (v : Word) : (s.setXreg x v).freeIdx = s.freeIdx := by cases x <;> rfl

@[simp] theorem setXreg_mem (s : State) (x : XReg) (v : Word) : (s.setXreg x v).mem = s.mem := by cases x <;> rfl

@[simp] theorem setGreg_cfg (s : State) (g : GReg) (v : Word) : (s.setGreg g v).cfg = s.cfg := by cases g <;> simp [State.setGreg]

@[simp] theorem setGreg_pins (s : State) (g : GReg) (v : Word) : (s.setGreg g v).pins = s.pins := by cases g <;> simp [State.setGreg]

@[simp] theorem setGreg_flags (s : State) (g : GReg) (v : Word) : (s.setGreg g v).flags = s.flags := by cases g <;> simp [State.setGreg]

@[simp] theorem setGreg_sb (s : State) (g : GReg) (v : Word) : (s.setGreg g v).sb = s.sb := by cases g <;> simp [State.setGreg]

@[simp] theorem setGreg_ss (s : State) (g : GReg) (v : Word) : (s.setGreg g v).ss = s.ss := by cases g <;> simp [State.setGreg]

@[simp] theorem setGreg_mds (s : State) (g : GReg) (v : Word) : (s.setGreg g v).mds = s.mds := by cases g <;> simp [State.setGreg]

@[simp] theorem setGreg_svc (s : State) (g : GReg) (v : Word) : (s.setGreg g v).svc = s.svc := by cases g <;> simp [State.setGreg]

@[simp] theorem setGreg_dmack (s : State) (g : GReg) (v : Word) : (s.setGreg g v).dmack = s.dmack := by cases g <;> simp [State.setGreg]

@[simp] theorem setGreg_hold (s : State) (g : GReg) (v : Word) : (s.setGreg g v).hold = s.hold := by cases g <;> simp [State.setGreg]

@[simp] theorem setGreg_dma (s : State) (g : GReg) (v : Word) : (s.setGreg g v).dma = s.dma := by cases g <;> simp [State.setGreg]

@[simp] theorem setGreg_devLog (s : State) (g : GReg) (v : Word) : (s.setGreg g v).devLog = s.devLog := by cases g <;> simp [State.setGreg]

@[simp] theorem setGreg_freeIdx (s : State) (g : GReg) (v : Word) : (s.setGreg g v).freeIdx = s.freeIdx := by cases g <;> simp [State.setGreg]

@[simp] theorem setGreg_mem (s : State) (g : GReg) (v : Word) : (s.setGreg g v).mem = s.mem := by cases g <;> simp [State.setGreg]

@[simp] theorem setMr_cfg (s : State) (v : BitVec 32) : (s.setMr v).cfg = s.cfg := by simp [State.setMr]

@[simp] theorem setMr_pins (s : State) (v : BitVec 32) : (s.setMr v).pins = s.pins := by simp [State.setMr]

@[simp] theorem setMr_flags (s : State) (v : BitVec 32) : (s.setMr v).flags = s.flags := by simp [State.setMr]

@[simp] theorem setMr_sb (s : State) (v : BitVec 32) : (s.setMr v).sb = s.sb := by simp [State.setMr]

@[simp] theorem setMr_ss (s : State) (v : BitVec 32) : (s.setMr v).ss = s.ss := by simp [State.setMr]

@[simp] theorem setMr_mds (s : State) (v : BitVec 32) : (s.setMr v).mds = s.mds := by simp [State.setMr]

@[simp] theorem setMr_svc (s : State) (v : BitVec 32) : (s.setMr v).svc = s.svc := by simp [State.setMr]

@[simp] theorem setMr_dmack (s : State) (v : BitVec 32) : (s.setMr v).dmack = s.dmack := by simp [State.setMr]

@[simp] theorem setMr_hold (s : State) (v : BitVec 32) : (s.setMr v).hold = s.hold := by simp [State.setMr]

@[simp] theorem setMr_dma (s : State) (v : BitVec 32) : (s.setMr v).dma = s.dma := by simp [State.setMr]

@[simp] theorem setMr_devLog (s : State) (v : BitVec 32) : (s.setMr v).devLog = s.devLog := by simp [State.setMr]

@[simp] theorem setMr_freeIdx (s : State) (v : BitVec 32) : (s.setMr v).freeIdx = s.freeIdx := by simp [State.setMr]

@[simp] theorem setMr_mem (s : State) (v : BitVec 32) : (s.setMr v).mem = s.mem := by simp [State.setMr]

@[simp] theorem aluWrite_cfg (s : State) (op : AluOp) (rd : Reg) (a b : Word) : (s.aluWrite op rd a b).cfg = s.cfg := by
  unfold State.aluWrite; dsimp only; split_ifs <;> simp

@[simp] theorem aluWrite_pins (s : State) (op : AluOp) (rd : Reg) (a b : Word) : (s.aluWrite op rd a b).pins = s.pins := by
  unfold State.aluWrite; dsimp only; split_ifs <;> simp

@[simp] theorem aluWrite_flags (s : State) (op : AluOp) (rd : Reg) (a b : Word) : (s.aluWrite op rd a b).flags = s.flags := by
  unfold State.aluWrite; dsimp only; split_ifs <;> simp

@[simp] theorem aluWrite_sb (s : State) (op : AluOp) (rd : Reg) (a b : Word) : (s.aluWrite op rd a b).sb = s.sb := by
  unfold State.aluWrite; dsimp only; split_ifs <;> simp

@[simp] theorem aluWrite_ss (s : State) (op : AluOp) (rd : Reg) (a b : Word) : (s.aluWrite op rd a b).ss = s.ss := by
  unfold State.aluWrite; dsimp only; split_ifs <;> simp

@[simp] theorem aluWrite_mds (s : State) (op : AluOp) (rd : Reg) (a b : Word) : (s.aluWrite op rd a b).mds = s.mds := by
  unfold State.aluWrite; dsimp only; split_ifs <;> simp

@[simp] theorem aluWrite_svc (s : State) (op : AluOp) (rd : Reg) (a b : Word) : (s.aluWrite op rd a b).svc = s.svc := by
  unfold State.aluWrite; dsimp only; split_ifs <;> simp

@[simp] theorem aluWrite_dmack (s : State) (op : AluOp) (rd : Reg) (a b : Word) : (s.aluWrite op rd a b).dmack = s.dmack := by
  unfold State.aluWrite; dsimp only; split_ifs <;> simp

@[simp] theorem aluWrite_hold (s : State) (op : AluOp) (rd : Reg) (a b : Word) : (s.aluWrite op rd a b).hold = s.hold := by
  unfold State.aluWrite; dsimp only; split_ifs <;> simp

@[simp] theorem aluWrite_dma (s : State) (op : AluOp) (rd : Reg) (a b : Word) : (s.aluWrite op rd a b).dma = s.dma := by
  unfold State.aluWrite; dsimp only; split_ifs <;> simp

@[simp] theorem aluWrite_devLog (s : State) (op : AluOp) (rd : Reg) (a b : Word) : (s.aluWrite op rd a b).devLog = s.devLog := by
  unfold State.aluWrite; dsimp only; split_ifs <;> simp

@[simp] theorem aluWrite_freeIdx (s : State) (op : AluOp) (rd : Reg) (a b : Word) : (s.aluWrite op rd a b).freeIdx = s.freeIdx := by
  unfold State.aluWrite; dsimp only; split_ifs <;> simp

@[simp] theorem aluWrite_mem (s : State) (op : AluOp) (rd : Reg) (a b : Word) : (s.aluWrite op rd a b).mem = s.mem := by
  unfold State.aluWrite; dsimp only; split_ifs <;> simp

@[simp] theorem aluWriteG_cfg (s : State) (op : AluOp) (g : GReg) (a b : Word) : (s.aluWriteG op g a b).cfg = s.cfg := by
  cases g <;> unfold State.aluWriteG <;> dsimp only <;> (try split_ifs) <;> simp

@[simp] theorem aluWriteG_pins (s : State) (op : AluOp) (g : GReg) (a b : Word) : (s.aluWriteG op g a b).pins = s.pins := by
  cases g <;> unfold State.aluWriteG <;> dsimp only <;> (try split_ifs) <;> simp

@[simp] theorem aluWriteG_flags (s : State) (op : AluOp) (g : GReg) (a b : Word) : (s.aluWriteG op g a b).flags = s.flags := by
  cases g <;> unfold State.aluWriteG <;> dsimp only <;> (try split_ifs) <;> simp

@[simp] theorem aluWriteG_sb (s : State) (op : AluOp) (g : GReg) (a b : Word) : (s.aluWriteG op g a b).sb = s.sb := by
  cases g <;> unfold State.aluWriteG <;> dsimp only <;> (try split_ifs) <;> simp

@[simp] theorem aluWriteG_ss (s : State) (op : AluOp) (g : GReg) (a b : Word) : (s.aluWriteG op g a b).ss = s.ss := by
  cases g <;> unfold State.aluWriteG <;> dsimp only <;> (try split_ifs) <;> simp

@[simp] theorem aluWriteG_mds (s : State) (op : AluOp) (g : GReg) (a b : Word) : (s.aluWriteG op g a b).mds = s.mds := by
  cases g <;> unfold State.aluWriteG <;> dsimp only <;> (try split_ifs) <;> simp

@[simp] theorem aluWriteG_svc (s : State) (op : AluOp) (g : GReg) (a b : Word) : (s.aluWriteG op g a b).svc = s.svc := by
  cases g <;> unfold State.aluWriteG <;> dsimp only <;> (try split_ifs) <;> simp

@[simp] theorem aluWriteG_dmack (s : State) (op : AluOp) (g : GReg) (a b : Word) : (s.aluWriteG op g a b).dmack = s.dmack := by
  cases g <;> unfold State.aluWriteG <;> dsimp only <;> (try split_ifs) <;> simp

@[simp] theorem aluWriteG_hold (s : State) (op : AluOp) (g : GReg) (a b : Word) : (s.aluWriteG op g a b).hold = s.hold := by
  cases g <;> unfold State.aluWriteG <;> dsimp only <;> (try split_ifs) <;> simp

@[simp] theorem aluWriteG_dma (s : State) (op : AluOp) (g : GReg) (a b : Word) : (s.aluWriteG op g a b).dma = s.dma := by
  cases g <;> unfold State.aluWriteG <;> dsimp only <;> (try split_ifs) <;> simp

@[simp] theorem aluWriteG_devLog (s : State) (op : AluOp) (g : GReg) (a b : Word) : (s.aluWriteG op g a b).devLog = s.devLog := by
  cases g <;> unfold State.aluWriteG <;> dsimp only <;> (try split_ifs) <;> simp

@[simp] theorem aluWriteG_freeIdx (s : State) (op : AluOp) (g : GReg) (a b : Word) : (s.aluWriteG op g a b).freeIdx = s.freeIdx := by
  cases g <;> unfold State.aluWriteG <;> dsimp only <;> (try split_ifs) <;> simp

@[simp] theorem aluWriteG_mem (s : State) (op : AluOp) (g : GReg) (a b : Word) : (s.aluWriteG op g a b).mem = s.mem := by
  cases g <;> unfold State.aluWriteG <;> dsimp only <;> (try split_ifs) <;> simp

@[simp] theorem aluStore_cfg (s : State) (op : AluOp) (ea : Addr) (a b : Word) : (s.aluStore op ea a b).cfg = s.cfg := by
  unfold State.aluStore; dsimp only; split_ifs <;> simp

@[simp] theorem aluStore_pins (s : State) (op : AluOp) (ea : Addr) (a b : Word) : (s.aluStore op ea a b).pins = s.pins := by
  unfold State.aluStore; dsimp only; split_ifs <;> simp

@[simp] theorem aluStore_regs (s : State) (op : AluOp) (ea : Addr) (a b : Word) : (s.aluStore op ea a b).regs = s.regs := by
  unfold State.aluStore; dsimp only; split_ifs <;> simp

@[simp] theorem aluStore_pc (s : State) (op : AluOp) (ea : Addr) (a b : Word) : (s.aluStore op ea a b).pc = s.pc := by
  unfold State.aluStore; dsimp only; split_ifs <;> simp

@[simp] theorem aluStore_flags (s : State) (op : AluOp) (ea : Addr) (a b : Word) : (s.aluStore op ea a b).flags = s.flags := by
  unfold State.aluStore; dsimp only; split_ifs <;> simp

@[simp] theorem aluStore_sb (s : State) (op : AluOp) (ea : Addr) (a b : Word) : (s.aluStore op ea a b).sb = s.sb := by
  unfold State.aluStore; dsimp only; split_ifs <;> simp

@[simp] theorem aluStore_ss (s : State) (op : AluOp) (ea : Addr) (a b : Word) : (s.aluStore op ea a b).ss = s.ss := by
  unfold State.aluStore; dsimp only; split_ifs <;> simp

@[simp] theorem aluStore_mds (s : State) (op : AluOp) (ea : Addr) (a b : Word) : (s.aluStore op ea a b).mds = s.mds := by
  unfold State.aluStore; dsimp only; split_ifs <;> simp

@[simp] theorem aluStore_svc (s : State) (op : AluOp) (ea : Addr) (a b : Word) : (s.aluStore op ea a b).svc = s.svc := by
  unfold State.aluStore; dsimp only; split_ifs <;> simp

@[simp] theorem aluStore_dmack (s : State) (op : AluOp) (ea : Addr) (a b : Word) : (s.aluStore op ea a b).dmack = s.dmack := by
  unfold State.aluStore; dsimp only; split_ifs <;> simp

@[simp] theorem aluStore_hold (s : State) (op : AluOp) (ea : Addr) (a b : Word) : (s.aluStore op ea a b).hold = s.hold := by
  unfold State.aluStore; dsimp only; split_ifs <;> simp

@[simp] theorem aluStore_freeIdx (s : State) (op : AluOp) (ea : Addr) (a b : Word) : (s.aluStore op ea a b).freeIdx = s.freeIdx := by
  unfold State.aluStore; dsimp only; split_ifs <;> simp

@[simp] theorem ptrCommit_cfg (s : State) (d : Bool) (m : PtrMode) (g : GReg) : (ptrCommit s d m g).cfg = s.cfg := by
  unfold ptrCommit; dsimp only; split_ifs <;> simp

@[simp] theorem ptrCommit_pins (s : State) (d : Bool) (m : PtrMode) (g : GReg) : (ptrCommit s d m g).pins = s.pins := by
  unfold ptrCommit; dsimp only; split_ifs <;> simp

@[simp] theorem ptrCommit_flags (s : State) (d : Bool) (m : PtrMode) (g : GReg) : (ptrCommit s d m g).flags = s.flags := by
  unfold ptrCommit; dsimp only; split_ifs <;> simp

@[simp] theorem ptrCommit_sb (s : State) (d : Bool) (m : PtrMode) (g : GReg) : (ptrCommit s d m g).sb = s.sb := by
  unfold ptrCommit; dsimp only; split_ifs <;> simp

@[simp] theorem ptrCommit_ss (s : State) (d : Bool) (m : PtrMode) (g : GReg) : (ptrCommit s d m g).ss = s.ss := by
  unfold ptrCommit; dsimp only; split_ifs <;> simp

@[simp] theorem ptrCommit_mds (s : State) (d : Bool) (m : PtrMode) (g : GReg) : (ptrCommit s d m g).mds = s.mds := by
  unfold ptrCommit; dsimp only; split_ifs <;> simp

@[simp] theorem ptrCommit_svc (s : State) (d : Bool) (m : PtrMode) (g : GReg) : (ptrCommit s d m g).svc = s.svc := by
  unfold ptrCommit; dsimp only; split_ifs <;> simp

@[simp] theorem ptrCommit_dmack (s : State) (d : Bool) (m : PtrMode) (g : GReg) : (ptrCommit s d m g).dmack = s.dmack := by
  unfold ptrCommit; dsimp only; split_ifs <;> simp

@[simp] theorem ptrCommit_hold (s : State) (d : Bool) (m : PtrMode) (g : GReg) : (ptrCommit s d m g).hold = s.hold := by
  unfold ptrCommit; dsimp only; split_ifs <;> simp

@[simp] theorem ptrCommit_dma (s : State) (d : Bool) (m : PtrMode) (g : GReg) : (ptrCommit s d m g).dma = s.dma := by
  unfold ptrCommit; dsimp only; split_ifs <;> simp

@[simp] theorem ptrCommit_devLog (s : State) (d : Bool) (m : PtrMode) (g : GReg) : (ptrCommit s d m g).devLog = s.devLog := by
  unfold ptrCommit; dsimp only; split_ifs <;> simp

@[simp] theorem ptrCommit_freeIdx (s : State) (d : Bool) (m : PtrMode) (g : GReg) : (ptrCommit s d m g).freeIdx = s.freeIdx := by
  unfold ptrCommit; dsimp only; split_ifs <;> simp

@[simp] theorem ptrCommit_mem (s : State) (d : Bool) (m : PtrMode) (g : GReg) : (ptrCommit s d m g).mem = s.mem := by
  unfold ptrCommit; dsimp only; split_ifs <;> simp

@[simp] theorem stepStack_cfg (s : State) (g : GReg) (d : Int) : (s.stepStack g d).cfg = s.cfg := by
  unfold State.stepStack; dsimp only; split_ifs <;> simp

@[simp] theorem stepStack_pins (s : State) (g : GReg) (d : Int) : (s.stepStack g d).pins = s.pins := by
  unfold State.stepStack; dsimp only; split_ifs <;> simp

@[simp] theorem stepStack_flags (s : State) (g : GReg) (d : Int) : (s.stepStack g d).flags = s.flags := by
  unfold State.stepStack; dsimp only; split_ifs <;> simp

@[simp] theorem stepStack_sb (s : State) (g : GReg) (d : Int) : (s.stepStack g d).sb = s.sb := by
  unfold State.stepStack; dsimp only; split_ifs <;> simp

@[simp] theorem stepStack_mds (s : State) (g : GReg) (d : Int) : (s.stepStack g d).mds = s.mds := by
  unfold State.stepStack; dsimp only; split_ifs <;> simp

@[simp] theorem stepStack_svc (s : State) (g : GReg) (d : Int) : (s.stepStack g d).svc = s.svc := by
  unfold State.stepStack; dsimp only; split_ifs <;> simp

@[simp] theorem stepStack_dmack (s : State) (g : GReg) (d : Int) : (s.stepStack g d).dmack = s.dmack := by
  unfold State.stepStack; dsimp only; split_ifs <;> simp

@[simp] theorem stepStack_hold (s : State) (g : GReg) (d : Int) : (s.stepStack g d).hold = s.hold := by
  unfold State.stepStack; dsimp only; split_ifs <;> simp

@[simp] theorem stepStack_dma (s : State) (g : GReg) (d : Int) : (s.stepStack g d).dma = s.dma := by
  unfold State.stepStack; dsimp only; split_ifs <;> simp

@[simp] theorem stepStack_devLog (s : State) (g : GReg) (d : Int) : (s.stepStack g d).devLog = s.devLog := by
  unfold State.stepStack; dsimp only; split_ifs <;> simp

@[simp] theorem stepStack_freeIdx (s : State) (g : GReg) (d : Int) : (s.stepStack g d).freeIdx = s.freeIdx := by
  unfold State.stepStack; dsimp only; split_ifs <;> simp

@[simp] theorem stepStack_mem (s : State) (g : GReg) (d : Int) : (s.stepStack g d).mem = s.mem := by
  unfold State.stepStack; dsimp only; split_ifs <;> simp

@[simp] theorem pushVia_cfg (s : State) (g : GReg) (v : Word) : (s.pushVia g v).cfg = s.cfg := by simp [State.pushVia]

@[simp] theorem pushReturn_cfg (s : State) : s.pushReturn.cfg = s.cfg := by simp [State.pushReturn, State.push]

@[simp] theorem pushVia_pins (s : State) (g : GReg) (v : Word) : (s.pushVia g v).pins = s.pins := by simp [State.pushVia]

@[simp] theorem pushReturn_pins (s : State) : s.pushReturn.pins = s.pins := by simp [State.pushReturn, State.push]

@[simp] theorem pushVia_flags (s : State) (g : GReg) (v : Word) : (s.pushVia g v).flags = s.flags := by simp [State.pushVia]

@[simp] theorem pushReturn_flags (s : State) : s.pushReturn.flags = s.flags := by simp [State.pushReturn, State.push]

@[simp] theorem pushVia_sb (s : State) (g : GReg) (v : Word) : (s.pushVia g v).sb = s.sb := by simp [State.pushVia]

@[simp] theorem pushReturn_sb (s : State) : s.pushReturn.sb = s.sb := by simp [State.pushReturn, State.push]

@[simp] theorem pushVia_mds (s : State) (g : GReg) (v : Word) : (s.pushVia g v).mds = s.mds := by simp [State.pushVia]

@[simp] theorem pushReturn_mds (s : State) : s.pushReturn.mds = s.mds := by simp [State.pushReturn, State.push]

@[simp] theorem pushVia_svc (s : State) (g : GReg) (v : Word) : (s.pushVia g v).svc = s.svc := by simp [State.pushVia]

@[simp] theorem pushReturn_svc (s : State) : s.pushReturn.svc = s.svc := by simp [State.pushReturn, State.push]

@[simp] theorem pushVia_dmack (s : State) (g : GReg) (v : Word) : (s.pushVia g v).dmack = s.dmack := by simp [State.pushVia]

@[simp] theorem pushReturn_dmack (s : State) : s.pushReturn.dmack = s.dmack := by simp [State.pushReturn, State.push]

@[simp] theorem pushVia_hold (s : State) (g : GReg) (v : Word) : (s.pushVia g v).hold = s.hold := by simp [State.pushVia]

@[simp] theorem pushReturn_hold (s : State) : s.pushReturn.hold = s.hold := by simp [State.pushReturn, State.push]

@[simp] theorem pushVia_freeIdx (s : State) (g : GReg) (v : Word) : (s.pushVia g v).freeIdx = s.freeIdx := by simp [State.pushVia]

@[simp] theorem pushReturn_freeIdx (s : State) : s.pushReturn.freeIdx = s.freeIdx := by simp [State.pushReturn, State.push]

@[simp] theorem popStep_cfg (s : State) (g : GReg) : (s.popStep g).cfg = s.cfg := by simp [State.popStep]

@[simp] theorem pop_cfg (s : State) : s.pop.2.cfg = s.cfg := by simp [State.pop]

@[simp] theorem returnFar_cfg (s : State) : s.returnFar.cfg = s.cfg := by simp [State.returnFar]

@[simp] theorem popStep_pins (s : State) (g : GReg) : (s.popStep g).pins = s.pins := by simp [State.popStep]

@[simp] theorem pop_pins (s : State) : s.pop.2.pins = s.pins := by simp [State.pop]

@[simp] theorem returnFar_pins (s : State) : s.returnFar.pins = s.pins := by simp [State.returnFar]

@[simp] theorem popStep_flags (s : State) (g : GReg) : (s.popStep g).flags = s.flags := by simp [State.popStep]

@[simp] theorem pop_flags (s : State) : s.pop.2.flags = s.flags := by simp [State.pop]

@[simp] theorem returnFar_flags (s : State) : s.returnFar.flags = s.flags := by simp [State.returnFar]

@[simp] theorem popStep_sb (s : State) (g : GReg) : (s.popStep g).sb = s.sb := by simp [State.popStep]

@[simp] theorem pop_sb (s : State) : s.pop.2.sb = s.sb := by simp [State.pop]

@[simp] theorem returnFar_sb (s : State) : s.returnFar.sb = s.sb := by simp [State.returnFar]

@[simp] theorem popStep_mds (s : State) (g : GReg) : (s.popStep g).mds = s.mds := by simp [State.popStep]

@[simp] theorem pop_mds (s : State) : s.pop.2.mds = s.mds := by simp [State.pop]

@[simp] theorem returnFar_mds (s : State) : s.returnFar.mds = s.mds := by simp [State.returnFar]

@[simp] theorem popStep_svc (s : State) (g : GReg) : (s.popStep g).svc = s.svc := by simp [State.popStep]

@[simp] theorem pop_svc (s : State) : s.pop.2.svc = s.svc := by simp [State.pop]

@[simp] theorem returnFar_svc (s : State) : s.returnFar.svc = s.svc := by simp [State.returnFar]

@[simp] theorem popStep_dmack (s : State) (g : GReg) : (s.popStep g).dmack = s.dmack := by simp [State.popStep]

@[simp] theorem pop_dmack (s : State) : s.pop.2.dmack = s.dmack := by simp [State.pop]

@[simp] theorem returnFar_dmack (s : State) : s.returnFar.dmack = s.dmack := by simp [State.returnFar]

@[simp] theorem popStep_hold (s : State) (g : GReg) : (s.popStep g).hold = s.hold := by simp [State.popStep]

@[simp] theorem pop_hold (s : State) : s.pop.2.hold = s.hold := by simp [State.pop]

@[simp] theorem returnFar_hold (s : State) : s.returnFar.hold = s.hold := by simp [State.returnFar]

@[simp] theorem popStep_dma (s : State) (g : GReg) : (s.popStep g).dma = s.dma := by simp [State.popStep]

@[simp] theorem popStep_devLog (s : State) (g : GReg) : (s.popStep g).devLog = s.devLog := by simp [State.popStep]

@[simp] theorem popStep_freeIdx (s : State) (g : GReg) : (s.popStep g).freeIdx = s.freeIdx := by simp [State.popStep]

@[simp] theorem pop_freeIdx (s : State) : s.pop.2.freeIdx = s.freeIdx := by simp [State.pop]

@[simp] theorem returnFar_freeIdx (s : State) : s.returnFar.freeIdx = s.freeIdx := by simp [State.returnFar]

@[simp] theorem popStep_mem (s : State) (g : GReg) : (s.popStep g).mem = s.mem := by simp [State.popStep]

@[simp] theorem enter_cfg (e : Event) (s : State) : (s.enter e).cfg = s.cfg := by
  unfold State.enter State.markAde; dsimp only; split_ifs <;> simp [State.push]

@[simp] theorem enter_pins (e : Event) (s : State) : (s.enter e).pins = s.pins := by
  unfold State.enter State.markAde; dsimp only; split_ifs <;> simp [State.push]

@[simp] theorem enter_sb (e : Event) (s : State) : (s.enter e).sb = s.sb := by
  unfold State.enter State.markAde; dsimp only; split_ifs <;> simp [State.push]

@[simp] theorem enter_mds (e : Event) (s : State) : (s.enter e).mds = s.mds := by
  unfold State.enter State.markAde; dsimp only; split_ifs <;> simp [State.push]

@[simp] theorem enter_dmack (e : Event) (s : State) : (s.enter e).dmack = s.dmack := by
  unfold State.enter State.markAde; dsimp only; split_ifs <;> simp [State.push]

@[simp] theorem enter_hold (e : Event) (s : State) : (s.enter e).hold = s.hold := by
  unfold State.enter State.markAde; dsimp only; split_ifs <;> simp [State.push]

@[simp] theorem enter_freeIdx (e : Event) (s : State) : (s.enter e).freeIdx = s.freeIdx := by
  unfold State.enter State.markAde; dsimp only; split_ifs <;> simp [State.push]

@[simp] theorem jump_nextPc (s : State) (t : Addr) : (s.jump t).nextPc = t := by
  simp only [State.nextPc, State.jump, mkAddr, pageOf, offsetOf]
  ext i hi
  simp only [BitVec.getElem_append, BitVec.getElem_extractLsb']
  split <;> rename_i hlt
  · simp [BitVec.getLsbD_eq_getElem hi]
  · have : 16 + (i - 16) = i := by omega
    simp [this, BitVec.getLsbD_eq_getElem hi]

@[simp] theorem advance_nextPc (s : State) (k : Nat) : (s.advance k).nextPc = s.seqAddr k := by
  simp only [State.nextPc, State.advance, mkAddr, pageOf, offsetOf]
  ext i hi
  simp only [BitVec.getElem_append, BitVec.getElem_extractLsb']
  split <;> rename_i hlt
  · simp [BitVec.getLsbD_eq_getElem hi]
  · have : 16 + (i - 16) = i := by omega
    simp [this, BitVec.getLsbD_eq_getElem hi]

@[simp] theorem setReg_bank (s : State) (r : Reg) (v : Word) : (s.setReg r v).bank = s.bank := by simp [State.bank]

@[simp] theorem setXreg_bank (s : State) (x : XReg) (v : Word) : (s.setXreg x v).bank = s.bank := by simp [State.bank]

@[simp] theorem dmaPoint_reg (s : State) (r : Reg) : s.dmaPoint.reg r = s.reg r := by cases r <;> rfl

@[simp] theorem dmaPoint_xreg (s : State) (x : XReg) : s.dmaPoint.xreg x = s.xreg x := by cases x <;> rfl

@[simp] theorem dmaPoint_greg (s : State) (g : GReg) : s.dmaPoint.greg g = s.greg g := by cases g <;> simp [State.greg]

@[simp] theorem noteRead_reg (s : State) (a : Addr) (r : Reg) : (s.noteRead a).reg r = s.reg r := by cases r <;> rfl

@[simp] theorem noteRead_xreg (s : State) (a : Addr) (x : XReg) : (s.noteRead a).xreg x = s.xreg x := by cases x <;> rfl

@[simp] theorem noteRead_greg (s : State) (a : Addr) (g : GReg) : (s.noteRead a).greg g = s.greg g := by cases g <;> simp [State.greg]

@[simp] theorem putWord_reg (s : State) (a : Addr) (v : Word) (r : Reg) : (s.putWord a v).reg r = s.reg r := by cases r <;> rfl

@[simp] theorem putWord_xreg (s : State) (a : Addr) (v : Word) (x : XReg) : (s.putWord a v).xreg x = s.xreg x := by cases x <;> rfl

@[simp] theorem putWord_greg (s : State) (a : Addr) (v : Word) (g : GReg) : (s.putWord a v).greg g = s.greg g := by cases g <;> simp [State.greg]

@[simp] theorem putByte_reg (s : State) (k : BitVec 23) (v : BitVec 8) (r : Reg) : (s.putByte k v).reg r = s.reg r := by cases r <;> rfl

@[simp] theorem putByte_xreg (s : State) (k : BitVec 23) (v : BitVec 8) (x : XReg) : (s.putByte k v).xreg x = s.xreg x := by cases x <;> rfl

@[simp] theorem putByte_greg (s : State) (k : BitVec 23) (v : BitVec 8) (g : GReg) : (s.putByte k v).greg g = s.greg g := by cases g <;> simp [State.greg]

@[simp] theorem load_reg (s : State) (a : Addr) (r : Reg) : (s.load a).2.reg r = s.reg r := by cases r <;> rfl

@[simp] theorem load_xreg (s : State) (a : Addr) (x : XReg) : (s.load a).2.xreg x = s.xreg x := by cases x <;> rfl

@[simp] theorem load_greg (s : State) (a : Addr) (g : GReg) : (s.load a).2.greg g = s.greg g := by cases g <;> simp [State.greg]

@[simp] theorem loadByte_reg (s : State) (k : BitVec 23) (r : Reg) : (s.loadByte k).2.reg r = s.reg r := by cases r <;> rfl

@[simp] theorem loadByte_xreg (s : State) (k : BitVec 23) (x : XReg) : (s.loadByte k).2.xreg x = s.xreg x := by cases x <;> rfl

@[simp] theorem loadByte_greg (s : State) (k : BitVec 23) (g : GReg) : (s.loadByte k).2.greg g = s.greg g := by cases g <;> simp [State.greg]

@[simp] theorem storeWord_reg (s : State) (a : Addr) (v : Word) (r : Reg) : (s.storeWord a v).reg r = s.reg r := by cases r <;> rfl

@[simp] theorem storeWord_xreg (s : State) (a : Addr) (v : Word) (x : XReg) : (s.storeWord a v).xreg x = s.xreg x := by cases x <;> rfl

@[simp] theorem storeWord_greg (s : State) (a : Addr) (v : Word) (g : GReg) : (s.storeWord a v).greg g = s.greg g := by cases g <;> simp [State.greg]

@[simp] theorem storeByte_reg (s : State) (k : BitVec 23) (v : BitVec 8) (r : Reg) : (s.storeByte k v).reg r = s.reg r := by cases r <;> rfl

@[simp] theorem storeByte_xreg (s : State) (k : BitVec 23) (v : BitVec 8) (x : XReg) : (s.storeByte k v).xreg x = s.xreg x := by cases x <;> rfl

@[simp] theorem storeByte_greg (s : State) (k : BitVec 23) (v : BitVec 8) (g : GReg) : (s.storeByte k v).greg g = s.greg g := by cases g <;> simp [State.greg]

@[simp] theorem setReg_xreg (s : State) (r : Reg) (v : Word) (x : XReg) : (s.setReg r v).xreg x = s.xreg x := by
  cases r <;> simp only [State.setReg] <;> first | (split <;> cases x <;> rfl) | (cases x <;> rfl)

@[simp] theorem setXreg_reg (s : State) (x : XReg) (v : Word) (r : Reg) : (s.setXreg x v).reg r = s.reg r := by cases x <;> cases r <;> rfl

/-- SR read back after it is written (R24, R48). -/
@[simp] theorem status_word_ofWord (w : Word) : (Status.ofWord w).word = w := by
  simp only [Status.word, Status.ofWord]
  ext i hi
  simp only [BitVec.getElem_append, BitVec.getElem_extractLsb', BitVec.getElem_ofBool]
  have : i = 0 ∨ i = 1 ∨ i = 2 ∨ i = 3 ∨ i = 4 ∨ i = 5 ∨ i = 6 ∨ i = 7 ∨ i = 8 ∨ i = 9 ∨ i = 10 ∨ i = 11 ∨ i = 12
      ∨ i = 13 ∨ i = 14 ∨ i = 15 := by omega
  rcases this with h | h | h | h | h | h | h | h | h | h | h | h | h | h | h | h <;> subst h <;>
    simp [BitVec.getLsbD_eq_getElem]

/-- The fields of SR give back its word, and the word its fields (R24, R48). -/
@[simp] theorem srWordOf_srFieldsOf (p : Params) (w : Word) : srWordOf p (srFieldsOf p w) = w := by
  unfold srWordOf srFieldsOf
  split <;> simp

/-- SR reads back what was written to it (R48). -/
@[simp] theorem setSr_srWord (s : State) (w : Word) : (s.setSr w).srWord = w := by
  simp [State.srWord, State.setSr]

/-- A register reads back what was written to it (R9, R20). -/
@[simp] theorem setReg_reg_same (s : State) (r : Reg) (v : Word) : (s.setReg r v).reg r = v := by
  have hb := setReg_bank s r v
  cases h : s.bank <;> rw [h] at hb <;> cases r <;>
    simp only [State.reg, hb, Bool.false_eq_true, if_false, if_true] <;>
    simp [State.setReg, h]

/-- A write of one register leaves the others (R20). -/
theorem setReg_reg_other (s : State) (r q : Reg) (v : Word) (h : q ≠ r) : (s.setReg r v).reg q = s.reg q := by
  have hb := setReg_bank s r v
  cases hc : s.bank <;> rw [hc] at hb <;> cases r <;> cases q <;> first
    | exact absurd rfl h
    | rfl
    | (simp only [State.reg, hb, hc, Bool.false_eq_true, if_false, if_true]
       simp [State.setReg, hc, State.srWord])

/-- An extend register reads back what was written to it (R44). -/
@[simp] theorem setXreg_xreg_same (s : State) (x : XReg) (v : Word) : (s.setXreg x v).xreg x = v := by
  cases x <;> rfl

/-- A write of one extend register leaves the others (R44). -/
theorem setXreg_xreg_other (s : State) (x y : XReg) (v : Word) (h : y ≠ x) : (s.setXreg x v).xreg y = s.xreg y := by
  cases x <;> cases y <;> first | exact absurd rfl h | rfl

/-- The shift buffer in use reads back what was written to it (R36). -/
@[simp] theorem setShiftBuf_shiftBuf (s : State) (v : BitVec 4) : (s.setShiftBuf v).shiftBuf = v := by
  simp only [State.shiftBuf, State.setShiftBuf]
  split_ifs <;> rfl

end Sys2Proof.Laws
end

