-- ==== Sys2Proof/Laws/Bus.lean ====
section
/-! SUPPORT. The bus, said once: what a word or byte written leaves behind each kind of address, and what the DMA master's
turn before an access changes. -/

namespace Sys2Proof.Laws

open Sys2Proof Sys2Proof.Machine

/-! ### Memory on the bus -/

/-- A bus write keeps the canonical form of memory. -/
theorem bus_write_wf (p : Params) (b : Bus) (a : Addr) (v : Word) (h : Memory.wf b.mem = true) :
    Memory.wf (b.write p a v).mem = true := by
  unfold Bus.write
  split
  · exact writeWord_wf _ _ _ h
  all_goals exact h

theorem bus_writeByte_wf (p : Params) (b : Bus) (e : BitVec 23) (v : BitVec 8) (h : Memory.wf b.mem = true) :
    Memory.wf (b.writeByte p e v).mem = true := by
  unfold Bus.writeByte
  split
  · exact writeByte_wf _ _ _ h e.isLt
  all_goals exact h

theorem bus_noteRead_mem (p : Params) (b : Bus) (a : Addr) : (b.noteRead p a).mem = b.mem := by
  unfold Bus.noteRead
  split <;> rfl

theorem bus_dmaAccess_wf (p : Params) (b : Bus) (x : DmaAccess) (h : Memory.wf b.mem = true) :
    Memory.wf (b.dmaAccess p x).mem = true := by
  cases x with
  | read a => exact (congrArg Memory.wf (bus_noteRead_mem p b a)).trans h
  | write a v => exact bus_write_wf p b a v h

theorem bus_dma_wf (p : Params) (l : List DmaAccess) (b : Bus) (h : Memory.wf b.mem = true) :
    Memory.wf (l.foldl (Bus.dmaAccess p) b).mem = true := by
  induction l generalizing b with
  | nil => exact h
  | cons x l ih => exact ih _ (bus_dmaAccess_wf p b x h)

/-- A byte outside the word written is unchanged. -/
theorem bus_write_byte (p : Params) (b : Bus) (a : Addr) (v : Word) (k : Nat) (h1 : k ≠ 2 * a.toNat)
    (h2 : k ≠ 2 * a.toNat + 1) : Memory.readByte (b.write p a v).mem k = Memory.readByte b.mem k := by
  unfold Bus.write
  split
  · simp only [Memory.writeWord]
    rw [readByte_writeByte_other _ _ _ _ h2, readByte_writeByte_other _ _ _ _ h1]
  all_goals rfl

/-- A byte no DMA access of the list writes is unchanged. -/
theorem bus_dma_byte (p : Params) (l : List DmaAccess) (b : Bus) (k : Nat)
    (h : ∀ v : Word, DmaAccess.write (BitVec.ofNat 22 (k / 2)) v ∉ l) :
    Memory.readByte (l.foldl (Bus.dmaAccess p) b).mem k = Memory.readByte b.mem k := by
  induction l generalizing b with
  | nil => rfl
  | cons x l ih =>
    rw [List.foldl_cons, ih _ (fun v hv => h v (List.mem_cons_of_mem _ hv))]
    cases x with
    | read a => exact congrArg (fun m => Memory.readByte m k) (bus_noteRead_mem p b a)
    | write a v =>
      have ha : ∀ e : Nat, k / 2 = e → a.toNat ≠ e := by
        intro e he hae
        refine h v ?_
        rw [he, ← hae, BitVec.ofNat_toNat, BitVec.setWidth_eq]
        exact List.mem_cons_self
      have := ha (k / 2) rfl
      exact bus_write_byte p b a v k (by omega) (by omega)

/-- The memory of ROM is never written. -/
theorem bus_write_rom (p : Params) (b : Bus) (a r : Addr) (v : Word) (h : p.backing r = .rom) :
    Memory.readWord (b.write p a v).mem r = Memory.readWord b.mem r := by
  unfold Bus.write
  split
  · rename_i ha
    have hne : r ≠ a := by
      intro e
      rw [e, ha] at h
      exact Backing.noConfusion h
    exact readWord_writeWord_other _ _ _ _ hne
  all_goals rfl

/-! ### The DMA master's turn -/

/-- The turn keeps the canonical form of memory. -/
theorem dmaPoint_wf (s : State) (h : Memory.wf s.mem = true) : Memory.wf s.dmaPoint.mem = true :=
  bus_dma_wf s.cfg s.dmaNow s.bus h

/-- A byte no DMA access ahead writes is unchanged by the turn. -/
theorem dmaPoint_byte (s : State) (k : Nat) (h : ¬ DmaWrites s (BitVec.ofNat 22 (k / 2))) :
    Memory.readByte s.dmaPoint.mem k = Memory.readByte s.mem k := by
  refine bus_dma_byte s.cfg s.dmaNow s.bus k (fun v hv => h ?_)
  unfold State.dmaNow at hv
  split at hv
  · rename_i hh
    refine ⟨?_, ?_⟩
    · revert hh
      cases s.cfg.ver <;> simp [hasHoldPins]
    · cases hd : s.dma with
      | nil => rw [hd] at hv; simp at hv
      | cons l t => exact ⟨l, List.mem_cons_self, v, by rw [hd] at hv; simpa using hv⟩
  · simp at hv

/-- What lies ahead after the turn lay ahead before it. -/
theorem dmaWrites_dmaPoint (s : State) (a : Addr) (h : DmaWrites s.dmaPoint a) : DmaWrites s a := by
  obtain ⟨h1, l, hl, v, hv⟩ := h
  refine ⟨h1, l, ?_, v, hv⟩
  have : s.dmaPoint.dma = if hasHoldPins s.cfg.ver then s.dma.tail else s.dma := rfl
  rw [this] at hl
  split at hl
  · exact List.mem_of_mem_tail hl
  · exact hl

/-- What DMA writes depends on the version and the accesses ahead alone. -/
theorem dmaWrites_congr {s t : State} (h1 : t.cfg = s.cfg) (h2 : t.dma = s.dma) (a : Addr) :
    DmaWrites t a ↔ DmaWrites s a := by
  unfold DmaWrites
  rw [h1, h2]

/-- A state in which less DMA lies ahead, on the same platform. -/
def LaterOn (s t : State) : Prop := t.cfg = s.cfg ∧ ∀ a : Addr, DmaWrites t a → DmaWrites s a

theorem laterOn_refl (s : State) : LaterOn s s := ⟨rfl, fun _ h => h⟩

theorem laterOn_trans {s t u : State} (h : LaterOn s t) (k : LaterOn t u) : LaterOn s u :=
  ⟨k.1.trans h.1, fun a hu => h.2 a (k.2 a hu)⟩

theorem laterOn_of_eq {s t : State} (h1 : t.cfg = s.cfg) (h2 : t.dma = s.dma) : LaterOn s t :=
  ⟨h1, fun a => (dmaWrites_congr h1 h2 a).1⟩

theorem dmaPoint_laterOn (s : State) : LaterOn s s.dmaPoint := ⟨rfl, dmaWrites_dmaPoint s⟩

theorem load_laterOn (s : State) (a : Addr) : LaterOn s (s.load a).2 :=
  laterOn_trans (dmaPoint_laterOn s) (laterOn_of_eq rfl rfl)

theorem storeWord_laterOn (s : State) (a : Addr) (v : Word) : LaterOn s (s.storeWord a v) :=
  laterOn_trans (dmaPoint_laterOn s) (laterOn_of_eq rfl rfl)

theorem Steady.later {s t : State} (h : LaterOn s t) {a : Addr} (k : Steady s a) : Steady t a :=
  ⟨by rw [h.1]; exact k.1, fun e => k.2 (h.2 a e)⟩

theorem Kept.later {s t : State} (h : LaterOn s t) {a : Addr} (k : Kept s a) : Kept t a :=
  ⟨by rw [h.1]; exact k.1, fun e => k.2 (h.2 a e)⟩

theorem Kept.steady {s : State} {a : Addr} (k : Kept s a) : Steady s a :=
  ⟨by rw [k.1]; exact Backing.noConfusion, k.2⟩

/-- The two bytes of a word. -/
theorem readWord_congr_bytes (m m' : Memory) (a : Addr) (h0 : Memory.readByte m' (2 * a.toNat) = Memory.readByte m (2 * a.toNat))
    (h1 : Memory.readByte m' (2 * a.toNat + 1) = Memory.readByte m (2 * a.toNat + 1)) :
    Memory.readWord m' a = Memory.readWord m a := by
  unfold Memory.readWord
  rw [h0, h1]

/-- The word address of a byte key of a word. -/
theorem ofNat_half (a : Addr) (k : Nat) (h : k / 2 = a.toNat) : BitVec.ofNat 22 (k / 2) = a := by
  rw [h, BitVec.ofNat_toNat, BitVec.setWidth_eq]

/-- What a word reads as depends on the platform, its two bytes and, for a device, on what the devices have seen. -/
theorem readWord_congr {s t : State} (a : Addr) (hc : t.cfg = s.cfg) (hd : s.cfg.backing a ≠ .device)
    (hm : ∀ k : Nat, k / 2 = a.toNat → Memory.readByte t.mem k = Memory.readByte s.mem k) :
    t.readWord a = s.readWord a := by
  have := readWord_congr_bytes s.mem t.mem a (hm _ (by omega)) (hm _ (by omega))
  unfold State.readWord
  rw [hc]
  cases h : s.cfg.backing a with
  | device => exact absurd h hd
  | ram => exact this
  | rom => exact this
  | unbacked v => rfl

/-- A steady word reads the same after the turn. -/
theorem dmaPoint_readWord (s : State) (a : Addr) (h : Steady s a) : s.dmaPoint.readWord a = s.readWord a :=
  readWord_congr a rfl h.1 (fun k hk => dmaPoint_byte s k (by rw [ofNat_half a k hk]; exact h.2))

/-- A steady word is loaded as it reads. -/
theorem load_word (s : State) (a : Addr) (h : Steady s a) : (s.load a).1 = s.readWord a := dmaPoint_readWord s a h

/-- A load changes no byte that DMA leaves alone. -/
theorem load_byte (s : State) (a : Addr) (k : Nat) (h : ¬ DmaWrites s (BitVec.ofNat 22 (k / 2))) :
    Memory.readByte (s.load a).2.mem k = Memory.readByte s.mem k := dmaPoint_byte s k h

/-- A load keeps the canonical form of memory. -/
theorem load_wf (s : State) (a : Addr) (h : Memory.wf s.mem = true) : Memory.wf (s.load a).2.mem = true :=
  dmaPoint_wf s h

/-! ### Stores -/

/-- A word put on the bus is the word R70 and R100 describe. -/
theorem putWord_stored (s : State) (a : Addr) (v : Word) (h : Memory.wf s.mem = true) : Stored a v s (s.putWord a v) := by
  refine ⟨fun k h1 h2 => bus_write_byte s.cfg s.bus a v k h1 h2, rfl, fun hb => ?_, fun hb => ?_, fun h1 h2 => ?_⟩
  · have hw : s.bus.write s.cfg a v = { s.bus with mem := Memory.writeWord s.bus.mem a v } := by
      unfold Bus.write
      rw [hb]
    refine ⟨?_, ?_⟩
    · have h0 : (s.putWord a v).readWord a = Memory.readWord (s.putWord a v).mem a := by
        unfold State.readWord
        rw [putWord_cfg, hb]
      have h1 : (s.putWord a v).mem = (s.bus.write s.cfg a v).mem := rfl
      rw [h0, h1, hw]
      exact readWord_writeWord_same s.mem a v h
    · show (s.bus.write s.cfg a v).devLog = s.devLog
      rw [hw]
      rfl
  · have hw : s.bus.write s.cfg a v = { s.bus with devLog := .write a v :: s.bus.devLog } := by
      unfold Bus.write
      rw [hb]
    exact ⟨congrArg Bus.mem hw, congrArg Bus.devLog hw⟩
  · have hw : s.bus.write s.cfg a v = s.bus := by
      unfold Bus.write
      split
      · rename_i h; exact absurd h h1
      · rename_i h; exact absurd h h2
      · rfl
      · rfl
    exact ⟨congrArg Bus.mem hw, congrArg Bus.devLog hw⟩

/-- A store of a word, after the DMA master's turn. -/
theorem storeWord_stored (s : State) (a : Addr) (v : Word) (h : Memory.wf s.mem = true) :
    Stored a v s.dmaPoint (s.storeWord a v) := putWord_stored s.dmaPoint a v (dmaPoint_wf s h)

/-- A store keeps the canonical form of memory. -/
theorem storeWord_wf (s : State) (a : Addr) (v : Word) (h : Memory.wf s.mem = true) :
    Memory.wf (s.storeWord a v).mem = true := bus_write_wf s.cfg s.dmaPoint.bus a v (dmaPoint_wf s h)

theorem storeByte_wf (s : State) (e : BitVec 23) (v : BitVec 8) (h : Memory.wf s.mem = true) :
    Memory.wf (s.storeByte e v).mem = true := bus_writeByte_wf s.cfg s.dmaPoint.bus e v (dmaPoint_wf s h)

/-- A store into RAM reads back. -/
theorem storeWord_readWord_same (s : State) (a : Addr) (v : Word) (h : Memory.wf s.mem = true)
    (hb : s.cfg.backing a = .ram) : (s.storeWord a v).readWord a = v :=
  ((storeWord_stored s a v h).2.2.1 hb).1

/-- A byte outside the stored word that DMA leaves alone is unchanged. -/
theorem storeWord_byte (s : State) (a : Addr) (v : Word) (k : Nat) (h1 : k / 2 ≠ a.toNat)
    (h2 : ¬ DmaWrites s (BitVec.ofNat 22 (k / 2))) :
    Memory.readByte (s.storeWord a v).mem k = Memory.readByte s.mem k := by
  have : Memory.readByte (s.storeWord a v).mem k = Memory.readByte s.dmaPoint.mem k :=
    bus_write_byte s.cfg s.dmaPoint.bus a v k (by omega) (by omega)
  rw [this, dmaPoint_byte s k h2]

/-- Another steady word reads as before. -/
theorem storeWord_readWord_other (s : State) (a b : Addr) (v : Word) (h : b ≠ a) (hb : Steady s b) :
    (s.storeWord a v).readWord b = s.readWord b :=
  readWord_congr b rfl hb.1 (fun k hk => storeWord_byte s a v k
    (fun e => h (BitVec.eq_of_toNat_eq (hk.symm.trans e))) (by rw [ofNat_half b k hk]; exact hb.2))

/-! ### Instructions that store, in [2.0] -/

/-- The words fetched ahead, as `Ahead` says. -/
theorem storesAhead_iff (s : State) (as : List Addr) : s.storesAhead as = true ↔ ∃ a ∈ as, Ahead s a := by
  unfold State.storesAhead Ahead
  by_cases hv : s.cfg.ver = .v20
  · have hn : s.cfg.ver ≠ .v10 := by rw [hv]; exact Version.noConfusion
    have hs : ∀ k : Nat, s.seqAddr k = s.nextPc + BitVec.ofNat 22 k := by
      intro k
      unfold State.seqAddr
      rw [if_neg hn]
    simp only [hv, decide_true, Bool.true_and, true_and, List.any_eq_true, decide_eq_true_eq, State.fetchedAhead, hs,
      List.mem_cons, List.not_mem_nil, or_false]
    constructor
    · rintro ⟨a, ha, h⟩
      refine ⟨a, ha, ?_⟩
      rcases h with h | h | h
      · exact ⟨0, by omega, h⟩
      · exact ⟨1, by omega, h⟩
      · exact ⟨2, by omega, h⟩
    · rintro ⟨a, ha, k, hk, h⟩
      refine ⟨a, ha, ?_⟩
      have : k = 0 ∨ k = 1 ∨ k = 2 := by omega
      rcases this with h0 | h0 | h0 <;> subst h0 <;> simp [h]
  · simp [hv]

/-- One stored address. -/
theorem storesAhead_one (s : State) (a : Addr) : s.storesAhead [a] = true ↔ Ahead s a := by
  simp [storesAhead_iff]

/-- An instruction that stores to no word fetched ahead completes. -/
theorem storing_next (s : State) (as : List Addr) (t : State) (h : ∀ a ∈ as, ¬ Ahead s a) :
    storing s as t = .next t := by
  unfold storing
  rw [if_neg (fun e => ?_)]
  obtain ⟨a, ha, hx⟩ := (storesAhead_iff s as).1 e
  exact h a ha hx

/-- An instruction that stores to one word: it stops where that is one fetched ahead. -/
theorem storing_unlessAhead (s : State) (a : Addr) (t : State) (P : Prop) (hp : storing s [a] t = .next t → P) :
    UnlessAhead (storing s [a] t) a s P :=
  ⟨fun h => hp (storing_next s [a] t (fun b hb => by rw [List.mem_singleton.mp hb]; exact h)),
    fun h => if_pos ((storesAhead_one s a).2 h)⟩

/-- An instruction that stores to a word fetched ahead stops. -/
theorem storing_refused (s : State) (as : List Addr) (t : State) (a : Addr) (ha : a ∈ as) (h : Ahead s a) :
    storing s as t = .refused .storeAhead := by
  unfold storing
  rw [if_pos ((storesAhead_iff s as).2 ⟨a, ha, h⟩)]

end Sys2Proof.Laws
end

