-- ==== Sys2Proof/Laws/Effects.lean ====
section
/-! SUPPORT. What each shared operation does, said once: a write of a register, the end of an ALU instruction, a store, a
pointer update, a push and a pop. -/

namespace Sys2Proof.Laws

open Sys2Proof Sys2Proof.Machine

/-! ### Sameness is an equivalence -/

theorem coreSame_trans {s t u : State} (h : CoreSame s t) (k : CoreSame t u) : CoreSame s u := by
  obtain ⟨h1, h2, h3, h4, h5, h6, h7, h8, h9⟩ := h
  obtain ⟨k1, k2, k3, k4, k5, k6, k7, k8, k9⟩ := k
  exact ⟨k1.trans h1, k2.trans h2, k3.trans h3, k4.trans h4, k5.trans h5, k6.trans h6, k7.trans h7, k8.trans h8,
    k9.trans h9⟩

theorem sysSame_trans {s t u : State} (h : SysSame s t) (k : SysSame t u) : SysSame s u :=
  ⟨coreSame_trans h.1 k.1, k.2.1.trans h.2.1, k.2.2.trans h.2.2⟩

theorem sysSame_refl (s : State) : SysSame s s := ⟨⟨rfl, rfl, rfl, rfl, rfl, rfl, rfl, rfl, rfl⟩, rfl, rfl⟩

/-! ### Register writes -/

/-- A written register reads back. -/
@[simp] theorem setGreg_greg_same (s : State) (g : GReg) (v : Word) : (s.setGreg g v).greg g = v := by
  cases g <;> simp [State.setGreg, State.greg]

/-- A write of one register leaves the others, SR and PC among them. -/
theorem setGreg_greg_other (s : State) (g q : GReg) (v : Word) (h : q ≠ g) : (s.setGreg g v).greg q = s.greg q := by
  cases g with
  | core r =>
    cases q with
    | core r' => exact setReg_reg_other s r r' v (fun e => h (by rw [e]))
    | ext x => simp [State.setGreg, State.greg]
  | ext x =>
    cases q with
    | core r' => simp [State.setGreg, State.greg]
    | ext y => exact setXreg_xreg_other s x y v (fun e => h (by rw [e]))

/-- A write of a register other than SR leaves SR. -/
theorem setGreg_status (s : State) (g : GReg) (v : Word) (h : g ≠ .core .sr) : (s.setGreg g v).status = s.status := by
  cases g with
  | core r => cases r <;> simp only [State.setGreg, State.setReg] <;> first | (split <;> rfl) | rfl | exact absurd rfl h
  | ext x => cases x <;> rfl

/-- A write of a register other than PC leaves PC. -/
theorem setGreg_pc (s : State) (g : GReg) (v : Word) (h : g ≠ .core .pc) : (s.setGreg g v).pc = s.pc := by
  cases g with
  | core r => cases r <;> simp only [State.setGreg, State.setReg] <;> first | (split <;> rfl) | rfl | exact absurd rfl h
  | ext x => cases x <;> rfl

/-- A write of a register leaves the bank not in use. -/
@[simp] theorem setGreg_otherBank (s : State) (g : GReg) (v : Word) : (s.setGreg g v).otherBank = s.otherBank := by
  cases g with
  | core r =>
    have hb := setReg_bank s r v
    simp only [State.setGreg, State.otherBank, hb]
    cases hc : s.bank <;> cases r <;> simp [State.setReg, hc, State.setSr]
  | ext x => cases x <;> rfl

/-- Sameness of memory and its traffic. -/
theorem memSame_refl (s : State) : MemSame s s := ⟨fun _ => rfl, rfl, rfl⟩

theorem memSame_trans {s t u : State} (h : MemSame s t) (k : MemSame t u) : MemSame s u :=
  ⟨fun b => (k.1 b).trans (h.1 b), k.2.1.trans h.2.1, k.2.2.trans h.2.2⟩

/-- A write of a register leaves memory and its traffic. -/
theorem setGreg_memSame (s : State) (g : GReg) (v : Word) : MemSame s (s.setGreg g v) := by
  simp [MemSame]

/-- A write of a register changes nothing but registers, SR and PC. -/
theorem setGreg_sysSame (s : State) (g : GReg) (v : Word) : SysSame s (s.setGreg g v) := by
  simp [SysSame, CoreSame]

/-! ### The ALU -/

/-- The result of an operation is that of R201. -/
theorem aluResult_eq (op : AluOp) (a b : Word) (c : Bool) : aluResult op a b c = specResult op a b c := by
  cases op <;> simp only [aluResult, specResult, sumU, aluAddend, aluCarryIn] <;>
    first
    | rfl
    | (cases c <;> apply BitVec.eq_of_toNat_eq <;>
        simp only [BitVec.toNat_ofNat, BitVec.toNat_add, BitVec.toNat_sub, BitVec.toNat_not, BitVec.toNat_neg,
          Bool.toNat_true, Bool.toNat_false, if_true, if_false, Bool.false_eq_true] <;>
        have h1 : BitVec.toNat (1 : Word) = 1 := rfl <;> have := a.isLt <;> have := b.isLt <;>
        (try simp only [h1]) <;> omega)

/-- The complement as a signed number. -/
theorem toInt_complement (b : Word) : (~~~b).toInt = -b.toInt - 1 := by
  have hb := b.isLt
  rw [BitVec.toInt_eq_toNat_cond, BitVec.toInt_eq_toNat_cond, BitVec.toNat_not]
  split_ifs <;> omega

/-- The flags of an operation are those of R200 and R201. -/
theorem aluStatus_flags (op : AluOp) (a b : Word) (s t : State) (h : t.status = aluStatus op a b s.status) :
    AluFlags op a b s t := by
  have ha := a.isLt
  have hb := b.isLt
  have hnot := toInt_complement b
  unfold AluFlags
  rw [h]
  simp only [aluStatus, aluResult_eq]
  refine ⟨?_, ?_, ?_, ?_, ?_, ?_⟩
  · split <;> simp [Status.setNZ, BitVec.msb_eq_getLsbD_last]
  · split <;> simp [Status.setNZ]
  · cases op <;> simp only [aluIsAdditive, specS, Status.setNZ, sumS, aluAddend, aluCarryIn, hnot, if_true, if_false,
      Bool.false_eq_true, Bool.toNat_true, Bool.toNat_false, Nat.cast_zero, add_zero, decide_eq_decide] <;> (try rfl) <;>
      omega
  · cases op <;> simp only [aluIsAdditive, specC, Status.setNZ, sumU, aluAddend, aluCarryIn, BitVec.toNat_not, if_true,
      if_false, Bool.false_eq_true, Bool.toNat_true, Bool.toNat_false, decide_eq_decide] <;> (try rfl) <;> try omega
    cases s.status.c <;>
      simp only [if_true, if_false, Bool.false_eq_true, Bool.toNat_true, Bool.toNat_false, decide_eq_decide] <;> omega
  · split <;> rfl
  · split <;> rfl

/-- The end of an ALU instruction is the template R222. -/
theorem aluWriteG_effect (op : AluOp) (g : GReg) (a b : Word) (s : State) : AluEffect op g a b s (s.aluWriteG op g a b) := by
  have hf := fun t h => aluStatus_flags op a b s t h
  have hw : aluWrites op = true ↔ ¬ AluCompares op := by cases op <;> simp [aluWrites, AluCompares]
  let u : State := { s with status := aluStatus op a b s.status }
  have hu : ∀ q : GReg, q ≠ .core .sr → q ≠ .core .pc → u.greg q = s.greg q := by
    intro q h1 h2
    cases q with
    | core r => cases r <;> first | rfl | exact absurd rfl h1
    | ext x => cases x <;> rfl
  have hsame : SysSame s u := by simp [SysSame, CoreSame, u, State.otherBank, State.bank]
  have hdef : s.aluWriteG op g a b =
      if aluWrites op then
        if g = .core .pc then s.setGreg g (aluResult op a b s.status.c) else u.setGreg g (aluResult op a b s.status.c)
      else if g = .core .pc then s else u := by
    cases g with
    | core r => cases r <;> simp [State.aluWriteG, State.aluWrite, State.setGreg, u]
    | ext x => simp [State.aluWriteG, State.setGreg, u]
  rw [hdef]
  by_cases hc : AluCompares op
  · have hn : aluWrites op = false := by
      cases h : aluWrites op
      · rfl
      · exact absurd hc (hw.mp h)
    simp only [hn, Bool.false_eq_true, if_false]
    by_cases hg : g = .core .pc
    · subst hg
      simp only [if_true]
      exact ⟨fun _ => ⟨fun _ => rfl, fun h => absurd rfl h, rfl, fun _ _ _ => rfl⟩, fun h => absurd hc h,
        sysSame_refl s, memSame_refl s⟩
    · simp only [hg, if_false]
      exact ⟨fun _ => ⟨fun h => absurd h hg, fun _ => hf u rfl, rfl, hu⟩, fun h => absurd hc h, hsame, memSame_refl s⟩
  · have hn : aluWrites op = true := hw.mpr hc
    simp only [hn, if_true]
    by_cases hg : g = .core .pc
    · subst hg
      simp only [if_true]
      refine ⟨fun h => absurd h hc, fun _ => ⟨fun _ => ⟨?_, rfl⟩, fun h => by simp at h, fun h => absurd rfl h, ?_⟩,
        setGreg_sysSame _ _ _, setGreg_memSame _ _ _⟩
      · rw [← aluResult_eq]; rfl
      · exact fun q h1 _ _ => setGreg_greg_other _ _ _ _ h1
    · simp only [hg, if_false]
      have hp := setGreg_pc u g (aluResult op a b s.status.c) hg
      refine ⟨fun h => absurd h hc, fun _ => ⟨fun h => absurd h hg, fun h => ⟨?_, hp⟩, fun _ h => ⟨?_, ?_, hp⟩, ?_⟩, ?_,
        setGreg_memSame u g _⟩
      · subst h
        have := setGreg_greg_same u (.core .sr) (aluResult op a b s.status.c)
        rw [← aluResult_eq]; exact this
      · rw [← aluResult_eq]; exact setGreg_greg_same _ _ _
      · exact hf _ (setGreg_status u g _ h)
      · intro q h1 h2 h3
        rw [setGreg_greg_other u g q _ h1]; exact hu q h2 h3
      · exact sysSame_trans hsame (setGreg_sysSame u g _)

/-- The same for a core register. -/
theorem aluWrite_effect (op : AluOp) (rd : Reg) (a b : Word) (s : State) :
    AluEffect op (.core rd) a b s (s.aluWrite op rd a b) := aluWriteG_effect op (.core rd) a b s

/-! ### Stores -/

/-- A store changes nothing but memory and its traffic. -/
theorem storeWord_sysSame (s : State) (a : Addr) (v : Word) : SysSame s (s.storeWord a v) :=
  ⟨⟨rfl, rfl, rfl, rfl, rfl, rfl, rfl, rfl, rfl⟩, rfl, rfl⟩

/-- A load changes nothing but memory and its traffic. -/
theorem load_sysSame (s : State) (a : Addr) : SysSame s (s.load a).2 :=
  ⟨⟨rfl, rfl, rfl, rfl, rfl, rfl, rfl, rfl, rfl⟩, rfl, rfl⟩

/-- A store is the store R171 describes. -/
theorem storeAt_done (s : State) (a : Addr) (v : Word) (h : Memory.wf s.mem = true) :
    StoreDone (storeAt a v s) a v s :=
  storing_unlessAhead s a _ _ fun e => ⟨_, e, storeWord_stored s a v h, rfl, rfl,
    fun q _ _ => storeWord_greg s a v q, storeWord_sysSame s a v⟩

/-- A write of SR leaves every other register. -/
theorem status_greg (t : State) (st : Status) (q : GReg) (h : q ≠ .core .sr) :
    ({ t with status := st } : State).greg q = t.greg q := by
  cases q with
  | core r => cases r <;> first | rfl | exact absurd rfl h
  | ext x => cases x <;> rfl

/-- The W = 1 form is that of R219. -/
theorem aluStore_done (op : AluOp) (ea : Addr) (a b : Word) (s : State) (h : Memory.wf s.mem = true) :
    AluStoreDone (storing s (aluStores op ea) (s.aluStore op ea a b)) op ea a b s := by
  have hw : aluWrites op = true ↔ ¬ AluCompares op := by cases op <;> simp [aluWrites, AluCompares]
  refine ⟨fun hc => ?_, fun hc => ?_⟩
  · have hn : aluWrites op = false := by
      cases e : aluWrites op
      · rfl
      · exact absurd hc (hw.mp e)
    have hs : s.aluStore op ea a b = { s with status := aluStatus op a b s.status } := by
      simp [State.aluStore, hn]
    rw [hs]
    refine ⟨_, storing_next s _ _ (by simp [aluStores, hn]), memSame_refl s, aluStatus_flags op a b s _ rfl, rfl,
      fun q h1 _ => status_greg s _ q h1, ⟨rfl, rfl, rfl, rfl, rfl, rfl, rfl, rfl, rfl⟩, rfl, rfl⟩
  · have hn := hw.mpr hc
    have hs : s.aluStore op ea a b =
        { s.storeWord ea (specResult op a b s.status.c) with status := aluStatus op a b s.status } := by
      simp only [State.aluStore, hn, if_true, aluResult_eq]
    have ha : aluStores op ea = [ea] := by simp [aluStores, hn]
    rw [hs, ha]
    refine storing_unlessAhead s ea _ _ fun e => ⟨_, e, storeWord_stored s ea _ h, aluStatus_flags op a b s _ rfl, rfl,
      fun q h1 _ => ?_, ⟨rfl, rfl, rfl, rfl, rfl, rfl, rfl, rfl, rfl⟩, rfl, rfl⟩
    rw [status_greg _ _ q h1]
    exact storeWord_greg s ea _ q

/-! ### Addresses as numbers -/

/-- An address from its page and offset. -/
theorem mkAddr_toNat (p : Page) (o : Word) : (mkAddr p o).toNat = p.toNat * 65536 + o.toNat := by
  have ho := o.isLt
  rw [mkAddr, BitVec.toNat_append, Nat.shiftLeft_eq, ← Nat.shiftLeft_eq, Nat.shiftLeft_add_eq_or_of_lt ho,
    Nat.shiftLeft_eq]

theorem offsetOf_toNat (a : Addr) : (offsetOf a).toNat = a.toNat % 65536 := by
  simp [offsetOf, BitVec.extractLsb'_toNat]

theorem pageOf_toNat (a : Addr) : (pageOf a).toNat = a.toNat / 65536 := by
  have ha := a.isLt
  simp only [pageOf, BitVec.extractLsb'_toNat, Nat.shiftRight_eq_div_pow]
  omega

/-- An address is its page and offset. -/
@[simp] theorem mkAddr_parts (a : Addr) : mkAddr (pageOf a) (offsetOf a) = a := by
  apply BitVec.eq_of_toNat_eq
  rw [mkAddr_toNat, offsetOf_toNat, pageOf_toNat]
  omega

@[simp] theorem pageOf_mkAddr (p : Page) (o : Word) : pageOf (mkAddr p o) = p := by
  have := o.isLt
  apply BitVec.eq_of_toNat_eq
  rw [pageOf_toNat, mkAddr_toNat]
  omega

@[simp] theorem offsetOf_mkAddr (p : Page) (o : Word) : offsetOf (mkAddr p o) = o := by
  have := o.isLt
  apply BitVec.eq_of_toNat_eq
  rw [offsetOf_toNat, mkAddr_toNat]
  omega

/-- The low half of a stepped address. -/
theorem offsetOf_add (a : Addr) (k : Int) : offsetOf (a + BitVec.ofInt 22 k) = offsetOf a + BitVec.ofInt 16 k := by
  apply BitVec.eq_of_toNat_eq
  rw [offsetOf_toNat, BitVec.toNat_add, BitVec.toNat_add, offsetOf_toNat, BitVec.toNat_ofInt, BitVec.toNat_ofInt]
  omega

/-! ### Pointers -/

/-- The low half of a stepped pointer. -/
theorem offsetOf_ptrStep (w : Bool) (p : Page) (o : Word) (k : Int) :
    offsetOf (ptrStep w (mkAddr p o) k) = o + BitVec.ofInt 16 k := by
  unfold ptrStep
  split
  · rw [offsetOf_add, offsetOf_mkAddr]
  · rw [offsetOf_mkAddr, offsetOf_mkAddr]

/-- The page of a pointer stepped up. -/
theorem pageOf_ptrStep_up (p : Page) (o : Word) :
    pageOf (ptrStep true (mkAddr p o) 1) = if o = 0xFFFF#16 then p + 1 else p := by
  have ho := o.isLt
  have hp := p.isLt
  have he : o = 0xFFFF#16 ↔ o.toNat = 65535 := BitVec.toNat_eq.trans Iff.rfl
  apply BitVec.eq_of_toNat_eq
  have h1 : (BitVec.ofInt 22 1).toNat = 1 := rfl
  simp only [ptrStep, if_true, pageOf_toNat, BitVec.toNat_add, mkAddr_toNat, h1, he]
  split <;> (try simp only [BitVec.toNat_add, show (1 : Page).toNat = 1 from rfl]) <;> omega

/-- Adding minus one to an address, over the naturals. -/
theorem addr_pred_toNat (a : Addr) : (a + BitVec.ofInt 22 (-1)).toNat = (a.toNat + 4194303) % 4194304 := by
  rw [BitVec.toNat_add, BitVec.toNat_ofInt]
  norm_num
  rfl

/-- The page of a pointer stepped down. -/
theorem pageOf_ptrStep_down (p : Page) (o : Word) :
    pageOf (ptrStep true (mkAddr p o) (-1)) = if o = 0 then p - 1 else p := by
  have ho := o.isLt
  have hp := p.isLt
  apply BitVec.eq_of_toNat_eq
  rw [ptrStep, if_pos rfl, pageOf_toNat, addr_pred_toNat, mkAddr_toNat]
  by_cases h : o = 0
  · subst h
    rw [if_pos rfl, BitVec.toNat_sub]
    have h0 : (0 : Word).toNat = 0 := rfl
    have h1 : (1 : Page).toNat = 1 := rfl
    rw [h0, h1]
    omega
  · have h0 : o.toNat ≠ 0 := fun e => h (BitVec.eq_of_toNat_eq e)
    rw [if_neg h]
    omega

/-- The address of `{D:}[Rs@]` is that of R86 and R87. -/
theorem ptrEa_eq (s : State) (d : Bool) (m : PtrMode) (p : Word) :
    ptrEa s d m p = specPointerEa s.cfg.ver d m p s.status.ds := by
  cases m with
  | preInc =>
    simp only [ptrEa, specPointerEa]
    rw [← mkAddr_parts (ptrStep (ptrWide s d) (mkAddr (dataPage s d) p) 1), offsetOf_ptrStep]
    congr 1
    cases d with
    | false => simp [ptrWide, ptrStep, dataPage]
    | true =>
      by_cases hv : s.cfg.ver = .v10
      · simp [ptrWide, ptrStep, dataPage, hv]
      · have hw : ptrWide s true = true := by simp [ptrWide, hv]
        rw [hw, pageOf_ptrStep_up]
        simp [dataPage, hv, specPointerDs]
  | _ => rfl

/-- Writing the pointer back is the update of R87. -/
theorem ptrCommit_moved (s : State) (d : Bool) (m : PtrMode) (g : GReg)
    (h : m = .keep ∨ (g ≠ .core .sr ∧ g ≠ .core .pc)) : PointerMoved d m g s (ptrCommit s d m g) := by
  have hds : ∀ (t : State) (p : Page) (q : GReg), q ≠ .core .sr → (t.setDs p).greg q = t.greg q :=
    fun t p q h1 => status_greg t _ q h1
  by_cases hm : m = .keep
  · subst hm
    refine ⟨rfl, ?_, fun q _ _ _ => rfl, rfl, sysSame_refl s, memSame_refl s⟩
    simp [ptrCommit, specPointerDs]
  · obtain ⟨h1, h2⟩ := h.resolve_left hm
    have ho : offsetOf (ptrNew s d m (s.greg g)) = specPointer m (s.greg g) := by
      cases m with
      | keep => exact absurd rfl hm
      | postDec =>
        simp only [ptrNew, specPointer]
        rw [offsetOf_ptrStep, BitVec.sub_eq_add_neg]
        congr 1
      | postInc => simp only [ptrNew, specPointer]; rw [offsetOf_ptrStep]; congr 1
      | preInc => simp only [ptrNew, specPointer]; rw [offsetOf_ptrStep]; congr 1
    have hst := setGreg_status s g (specPointer m (s.greg g)) h1
    have hpc := setGreg_pc s g (specPointer m (s.greg g)) h2
    have hmem := setGreg_memSame s g (specPointer m (s.greg g))
    have hsys := setGreg_sysSame s g (specPointer m (s.greg g))
    have hsame := setGreg_greg_same s g (specPointer m (s.greg g))
    have hoth := fun q hq => setGreg_greg_other s g q (specPointer m (s.greg g)) hq
    simp only [ptrCommit, hm, if_false, ho]
    by_cases hw : ptrWide s d = true
    · have hw' : d = true ∧ s.cfg.ver ≠ .v10 := by simpa [ptrWide] using hw
      obtain ⟨rfl, hv⟩ := hw'
      have hp : pageOf (ptrNew s true m (s.greg g)) = specPointerDs m (s.greg g) s.status.ds := by
        cases m with
        | keep => exact absurd rfl hm
        | postDec => simp only [ptrNew, hw, dataPage, if_true, specPointerDs]; rw [pageOf_ptrStep_down]
        | postInc => simp only [ptrNew, hw, dataPage, if_true, specPointerDs]; rw [pageOf_ptrStep_up]
        | preInc => simp only [ptrNew, hw, dataPage, if_true, specPointerDs]; rw [pageOf_ptrStep_up]
      simp only [hw, if_true, hp]
      refine ⟨(hds _ _ g h1).trans hsame, ?_, fun q e1 e2 _ => (hds _ _ q e2).trans (hoth q e1), hpc,
        sysSame_trans hsys ⟨⟨rfl, rfl, rfl, rfl, rfl, rfl, rfl, rfl, rfl⟩, rfl, rfl⟩, hmem⟩
      simp [State.setDs, hst, hv]
    · have hw' : ¬ (d = true ∧ s.cfg.ver ≠ .v10) := by simpa [ptrWide] using hw
      simp only [hw, if_false, Bool.false_eq_true]
      refine ⟨hsame, ?_, fun q e1 _ _ => hoth q e1, hpc, hsys, hmem⟩
      rw [hst, if_neg hw']

end Sys2Proof.Laws
end

