-- ==== Sys2Proof/Laws/PerInstr.lean ====
section
/-! SUPPORT. A statement for every instruction, one lemma each: its encoding has as many words as the instruction is long,
and its shape names it (so no two instructions share a shape). -/

namespace Sys2Proof.Laws

open Sys2Proof

/-- The encoding has `words` words for all parameters, and the shape leads back to the instruction. -/
def EncodeWords.Statement (i : Instr) : Prop :=
  (∀ p : Params, (encode p i).length = i.words) ∧ i.shape.toInstr = some i

theorem EncodeWords.jcc (back : Bool) (im : BitVec 6) : EncodeWords.Statement (.jcc back im) := ⟨fun _ => rfl, rfl⟩

theorem EncodeWords.jcs (back : Bool) (im : BitVec 6) : EncodeWords.Statement (.jcs back im) := ⟨fun _ => rfl, rfl⟩

theorem EncodeWords.jsc (back : Bool) (im : BitVec 6) : EncodeWords.Statement (.jsc back im) := ⟨fun _ => rfl, rfl⟩

theorem EncodeWords.jss (back : Bool) (im : BitVec 6) : EncodeWords.Statement (.jss back im) := ⟨fun _ => rfl, rfl⟩

theorem EncodeWords.jne (back : Bool) (im : BitVec 6) : EncodeWords.Statement (.jne back im) := ⟨fun _ => rfl, rfl⟩

theorem EncodeWords.jz (back : Bool) (im : BitVec 6) : EncodeWords.Statement (.jz back im) := ⟨fun _ => rfl, rfl⟩

theorem EncodeWords.jpl (back : Bool) (im : BitVec 6) : EncodeWords.Statement (.jpl back im) := ⟨fun _ => rfl, rfl⟩

theorem EncodeWords.jmi (back : Bool) (im : BitVec 6) : EncodeWords.Statement (.jmi back im) := ⟨fun _ => rfl, rfl⟩

theorem EncodeWords.jbe (back : Bool) (im : BitVec 6) : EncodeWords.Statement (.jbe back im) := ⟨fun _ => rfl, rfl⟩

theorem EncodeWords.jnbe (back : Bool) (im : BitVec 6) : EncodeWords.Statement (.jnbe back im) := ⟨fun _ => rfl, rfl⟩

theorem EncodeWords.jle (back : Bool) (im : BitVec 6) : EncodeWords.Statement (.jle back im) := ⟨fun _ => rfl, rfl⟩

theorem EncodeWords.jnle (back : Bool) (im : BitVec 6) : EncodeWords.Statement (.jnle back im) := ⟨fun _ => rfl, rfl⟩

theorem EncodeWords.jvc (back : Bool) (im : BitVec 6) : EncodeWords.Statement (.jvc back im) := ⟨fun _ => rfl, rfl⟩

theorem EncodeWords.jvs (back : Bool) (im : BitVec 6) : EncodeWords.Statement (.jvs back im) := ⟨fun _ => rfl, rfl⟩

theorem EncodeWords.jmp (back : Bool) (im : BitVec 6) : EncodeWords.Statement (.jmp back im) := ⟨fun _ => rfl, rfl⟩

theorem EncodeWords.dsIm6 (im : BitVec 6) : EncodeWords.Statement (.dsIm6 im) := ⟨fun _ => rfl, rfl⟩

theorem EncodeWords.goto (hi : Page) (lo : Word) : EncodeWords.Statement (.goto hi lo) := ⟨fun _ => rfl, rfl⟩

theorem EncodeWords.extPrefix (e : Word) : EncodeWords.Statement (.extPrefix e) := ⟨fun _ => rfl, rfl⟩

theorem EncodeWords.tstbA16 (d : Bool) (off : BitVec 4) (a : Word) : EncodeWords.Statement (.tstbA16 d off a) := ⟨fun _ => rfl, rfl⟩

theorem EncodeWords.setbA16 (d : Bool) (off : BitVec 4) (a : Word) : EncodeWords.Statement (.setbA16 d off a) := ⟨fun _ => rfl, rfl⟩

theorem EncodeWords.clrbA16 (d : Bool) (off : BitVec 4) (a : Word) : EncodeWords.Statement (.clrbA16 d off a) := ⟨fun _ => rfl, rfl⟩

theorem EncodeWords.invbA16 (d : Bool) (off : BitVec 4) (a : Word) : EncodeWords.Statement (.invbA16 d off a) := ⟨fun _ => rfl, rfl⟩

theorem EncodeWords.addBpIm6 (rd : Reg) (im : BitVec 6) : EncodeWords.Statement (.addBpIm6 rd im) := ⟨fun _ => rfl, rfl⟩

theorem EncodeWords.addIm6 (rd : Reg) (im : BitVec 6) : EncodeWords.Statement (.addIm6 rd im) := ⟨fun _ => rfl, rfl⟩

theorem EncodeWords.addInd (rd : Reg) (d : Bool) (m : PtrMode) (rs : Reg) : EncodeWords.Statement (.addInd rd d m rs) := ⟨fun _ => rfl, rfl⟩

theorem EncodeWords.addReg (rd : Reg) (rs : Reg) : EncodeWords.Statement (.addReg rd rs) := ⟨fun _ => rfl, rfl⟩

theorem EncodeWords.addIm16 (rd : Reg) (rs : Reg) (im : Word) : EncodeWords.Statement (.addIm16 rd rs im) := ⟨fun _ => rfl, rfl⟩

theorem EncodeWords.addA16 (w : Bool) (rd : Reg) (rs : Reg) (a : Word) : EncodeWords.Statement (.addA16 w rd rs a) := ⟨fun _ => rfl, rfl⟩

theorem EncodeWords.addShift (k : Shift4) (rd : Reg) (nn : BitVec 2) (rs : Reg) : EncodeWords.Statement (.addShift k rd nn rs) := ⟨fun _ => rfl, rfl⟩

theorem EncodeWords.addA6 (rd : Reg) (a : BitVec 6) : EncodeWords.Statement (.addA6 rd a) := ⟨fun _ => rfl, rfl⟩

theorem EncodeWords.adcBpIm6 (rd : Reg) (im : BitVec 6) : EncodeWords.Statement (.adcBpIm6 rd im) := ⟨fun _ => rfl, rfl⟩

theorem EncodeWords.adcIm6 (rd : Reg) (im : BitVec 6) : EncodeWords.Statement (.adcIm6 rd im) := ⟨fun _ => rfl, rfl⟩

theorem EncodeWords.adcInd (rd : Reg) (d : Bool) (m : PtrMode) (rs : Reg) : EncodeWords.Statement (.adcInd rd d m rs) := ⟨fun _ => rfl, rfl⟩

theorem EncodeWords.adcReg (rd : Reg) (rs : Reg) : EncodeWords.Statement (.adcReg rd rs) := ⟨fun _ => rfl, rfl⟩

theorem EncodeWords.adcIm16 (rd : Reg) (rs : Reg) (im : Word) : EncodeWords.Statement (.adcIm16 rd rs im) := ⟨fun _ => rfl, rfl⟩

theorem EncodeWords.adcA16 (w : Bool) (rd : Reg) (rs : Reg) (a : Word) : EncodeWords.Statement (.adcA16 w rd rs a) := ⟨fun _ => rfl, rfl⟩

theorem EncodeWords.adcShift (k : Shift4) (rd : Reg) (nn : BitVec 2) (rs : Reg) : EncodeWords.Statement (.adcShift k rd nn rs) := ⟨fun _ => rfl, rfl⟩

theorem EncodeWords.adcA6 (rd : Reg) (a : BitVec 6) : EncodeWords.Statement (.adcA6 rd a) := ⟨fun _ => rfl, rfl⟩

theorem EncodeWords.subBpIm6 (rd : Reg) (im : BitVec 6) : EncodeWords.Statement (.subBpIm6 rd im) := ⟨fun _ => rfl, rfl⟩

theorem EncodeWords.subIm6 (rd : Reg) (im : BitVec 6) : EncodeWords.Statement (.subIm6 rd im) := ⟨fun _ => rfl, rfl⟩

theorem EncodeWords.subInd (rd : Reg) (d : Bool) (m : PtrMode) (rs : Reg) : EncodeWords.Statement (.subInd rd d m rs) := ⟨fun _ => rfl, rfl⟩

theorem EncodeWords.subReg (rd : Reg) (rs : Reg) : EncodeWords.Statement (.subReg rd rs) := ⟨fun _ => rfl, rfl⟩

theorem EncodeWords.subIm16 (rd : Reg) (rs : Reg) (im : Word) : EncodeWords.Statement (.subIm16 rd rs im) := ⟨fun _ => rfl, rfl⟩

theorem EncodeWords.subA16 (w : Bool) (rd : Reg) (rs : Reg) (a : Word) : EncodeWords.Statement (.subA16 w rd rs a) := ⟨fun _ => rfl, rfl⟩

theorem EncodeWords.subShift (k : Shift4) (rd : Reg) (nn : BitVec 2) (rs : Reg) : EncodeWords.Statement (.subShift k rd nn rs) := ⟨fun _ => rfl, rfl⟩

theorem EncodeWords.subA6 (rd : Reg) (a : BitVec 6) : EncodeWords.Statement (.subA6 rd a) := ⟨fun _ => rfl, rfl⟩

theorem EncodeWords.sbcBpIm6 (rd : Reg) (im : BitVec 6) : EncodeWords.Statement (.sbcBpIm6 rd im) := ⟨fun _ => rfl, rfl⟩

theorem EncodeWords.sbcIm6 (rd : Reg) (im : BitVec 6) : EncodeWords.Statement (.sbcIm6 rd im) := ⟨fun _ => rfl, rfl⟩

theorem EncodeWords.sbcInd (rd : Reg) (d : Bool) (m : PtrMode) (rs : Reg) : EncodeWords.Statement (.sbcInd rd d m rs) := ⟨fun _ => rfl, rfl⟩

theorem EncodeWords.sbcReg (rd : Reg) (rs : Reg) : EncodeWords.Statement (.sbcReg rd rs) := ⟨fun _ => rfl, rfl⟩

theorem EncodeWords.sbcIm16 (rd : Reg) (rs : Reg) (im : Word) : EncodeWords.Statement (.sbcIm16 rd rs im) := ⟨fun _ => rfl, rfl⟩

theorem EncodeWords.sbcA16 (w : Bool) (rd : Reg) (rs : Reg) (a : Word) : EncodeWords.Statement (.sbcA16 w rd rs a) := ⟨fun _ => rfl, rfl⟩

theorem EncodeWords.sbcShift (k : Shift4) (rd : Reg) (nn : BitVec 2) (rs : Reg) : EncodeWords.Statement (.sbcShift k rd nn rs) := ⟨fun _ => rfl, rfl⟩

theorem EncodeWords.sbcA6 (rd : Reg) (a : BitVec 6) : EncodeWords.Statement (.sbcA6 rd a) := ⟨fun _ => rfl, rfl⟩

theorem EncodeWords.cmpBpIm6 (rd : Reg) (im : BitVec 6) : EncodeWords.Statement (.cmpBpIm6 rd im) := ⟨fun _ => rfl, rfl⟩

theorem EncodeWords.cmpIm6 (rd : Reg) (im : BitVec 6) : EncodeWords.Statement (.cmpIm6 rd im) := ⟨fun _ => rfl, rfl⟩

theorem EncodeWords.cmpInd (rd : Reg) (d : Bool) (m : PtrMode) (rs : Reg) : EncodeWords.Statement (.cmpInd rd d m rs) := ⟨fun _ => rfl, rfl⟩

theorem EncodeWords.cmpReg (rd : Reg) (rs : Reg) : EncodeWords.Statement (.cmpReg rd rs) := ⟨fun _ => rfl, rfl⟩

theorem EncodeWords.cmpIm16 (rd : Reg) (rs : Reg) (im : Word) : EncodeWords.Statement (.cmpIm16 rd rs im) := ⟨fun _ => rfl, rfl⟩

theorem EncodeWords.cmpA16 (w : Bool) (rd : Reg) (rs : Reg) (a : Word) : EncodeWords.Statement (.cmpA16 w rd rs a) := ⟨fun _ => rfl, rfl⟩

theorem EncodeWords.cmpShift (k : Shift4) (rd : Reg) (nn : BitVec 2) (rs : Reg) : EncodeWords.Statement (.cmpShift k rd nn rs) := ⟨fun _ => rfl, rfl⟩

theorem EncodeWords.cmpA6 (rd : Reg) (a : BitVec 6) : EncodeWords.Statement (.cmpA6 rd a) := ⟨fun _ => rfl, rfl⟩

theorem EncodeWords.negBpIm6 (rd : Reg) (im : BitVec 6) : EncodeWords.Statement (.negBpIm6 rd im) := ⟨fun _ => rfl, rfl⟩

theorem EncodeWords.negIm6 (rd : Reg) (im : BitVec 6) : EncodeWords.Statement (.negIm6 rd im) := ⟨fun _ => rfl, rfl⟩

theorem EncodeWords.negInd (rd : Reg) (d : Bool) (m : PtrMode) (rs : Reg) : EncodeWords.Statement (.negInd rd d m rs) := ⟨fun _ => rfl, rfl⟩

theorem EncodeWords.negReg (rd : Reg) (rs : Reg) : EncodeWords.Statement (.negReg rd rs) := ⟨fun _ => rfl, rfl⟩

theorem EncodeWords.negIm16 (rd : Reg) (rs : Reg) (im : Word) : EncodeWords.Statement (.negIm16 rd rs im) := ⟨fun _ => rfl, rfl⟩

theorem EncodeWords.negA16 (w : Bool) (rd : Reg) (rs : Reg) (a : Word) : EncodeWords.Statement (.negA16 w rd rs a) := ⟨fun _ => rfl, rfl⟩

theorem EncodeWords.negShift (k : Shift4) (rd : Reg) (nn : BitVec 2) (rs : Reg) : EncodeWords.Statement (.negShift k rd nn rs) := ⟨fun _ => rfl, rfl⟩

theorem EncodeWords.negA6 (rd : Reg) (a : BitVec 6) : EncodeWords.Statement (.negA6 rd a) := ⟨fun _ => rfl, rfl⟩

theorem EncodeWords.xorBpIm6 (rd : Reg) (im : BitVec 6) : EncodeWords.Statement (.xorBpIm6 rd im) := ⟨fun _ => rfl, rfl⟩

theorem EncodeWords.xorIm6 (rd : Reg) (im : BitVec 6) : EncodeWords.Statement (.xorIm6 rd im) := ⟨fun _ => rfl, rfl⟩

theorem EncodeWords.xorInd (rd : Reg) (d : Bool) (m : PtrMode) (rs : Reg) : EncodeWords.Statement (.xorInd rd d m rs) := ⟨fun _ => rfl, rfl⟩

theorem EncodeWords.xorReg (rd : Reg) (rs : Reg) : EncodeWords.Statement (.xorReg rd rs) := ⟨fun _ => rfl, rfl⟩

theorem EncodeWords.xorIm16 (rd : Reg) (rs : Reg) (im : Word) : EncodeWords.Statement (.xorIm16 rd rs im) := ⟨fun _ => rfl, rfl⟩

theorem EncodeWords.xorA16 (w : Bool) (rd : Reg) (rs : Reg) (a : Word) : EncodeWords.Statement (.xorA16 w rd rs a) := ⟨fun _ => rfl, rfl⟩

theorem EncodeWords.xorShift (k : Shift4) (rd : Reg) (nn : BitVec 2) (rs : Reg) : EncodeWords.Statement (.xorShift k rd nn rs) := ⟨fun _ => rfl, rfl⟩

theorem EncodeWords.xorA6 (rd : Reg) (a : BitVec 6) : EncodeWords.Statement (.xorA6 rd a) := ⟨fun _ => rfl, rfl⟩

theorem EncodeWords.loadBpIm6 (rd : Reg) (im : BitVec 6) : EncodeWords.Statement (.loadBpIm6 rd im) := ⟨fun _ => rfl, rfl⟩

theorem EncodeWords.loadIm6 (rd : Reg) (im : BitVec 6) : EncodeWords.Statement (.loadIm6 rd im) := ⟨fun _ => rfl, rfl⟩

theorem EncodeWords.loadInd (rd : Reg) (d : Bool) (m : PtrMode) (rs : Reg) : EncodeWords.Statement (.loadInd rd d m rs) := ⟨fun _ => rfl, rfl⟩

theorem EncodeWords.loadReg (rd : Reg) (rs : Reg) : EncodeWords.Statement (.loadReg rd rs) := ⟨fun _ => rfl, rfl⟩

theorem EncodeWords.loadIm16 (rd : Reg) (rs : Reg) (im : Word) : EncodeWords.Statement (.loadIm16 rd rs im) := ⟨fun _ => rfl, rfl⟩

theorem EncodeWords.loadA16 (rd : Reg) (rs : Reg) (a : Word) : EncodeWords.Statement (.loadA16 rd rs a) := ⟨fun _ => rfl, rfl⟩

theorem EncodeWords.loadShift (k : Shift4) (rd : Reg) (nn : BitVec 2) (rs : Reg) : EncodeWords.Statement (.loadShift k rd nn rs) := ⟨fun _ => rfl, rfl⟩

theorem EncodeWords.loadA6 (rd : Reg) (a : BitVec 6) : EncodeWords.Statement (.loadA6 rd a) := ⟨fun _ => rfl, rfl⟩

theorem EncodeWords.orBpIm6 (rd : Reg) (im : BitVec 6) : EncodeWords.Statement (.orBpIm6 rd im) := ⟨fun _ => rfl, rfl⟩

theorem EncodeWords.orIm6 (rd : Reg) (im : BitVec 6) : EncodeWords.Statement (.orIm6 rd im) := ⟨fun _ => rfl, rfl⟩

theorem EncodeWords.orInd (rd : Reg) (d : Bool) (m : PtrMode) (rs : Reg) : EncodeWords.Statement (.orInd rd d m rs) := ⟨fun _ => rfl, rfl⟩

theorem EncodeWords.orReg (rd : Reg) (rs : Reg) : EncodeWords.Statement (.orReg rd rs) := ⟨fun _ => rfl, rfl⟩

theorem EncodeWords.orIm16 (rd : Reg) (rs : Reg) (im : Word) : EncodeWords.Statement (.orIm16 rd rs im) := ⟨fun _ => rfl, rfl⟩

theorem EncodeWords.orA16 (w : Bool) (rd : Reg) (rs : Reg) (a : Word) : EncodeWords.Statement (.orA16 w rd rs a) := ⟨fun _ => rfl, rfl⟩

theorem EncodeWords.orShift (k : Shift4) (rd : Reg) (nn : BitVec 2) (rs : Reg) : EncodeWords.Statement (.orShift k rd nn rs) := ⟨fun _ => rfl, rfl⟩

theorem EncodeWords.orA6 (rd : Reg) (a : BitVec 6) : EncodeWords.Statement (.orA6 rd a) := ⟨fun _ => rfl, rfl⟩

theorem EncodeWords.andBpIm6 (rd : Reg) (im : BitVec 6) : EncodeWords.Statement (.andBpIm6 rd im) := ⟨fun _ => rfl, rfl⟩

theorem EncodeWords.andIm6 (rd : Reg) (im : BitVec 6) : EncodeWords.Statement (.andIm6 rd im) := ⟨fun _ => rfl, rfl⟩

theorem EncodeWords.andInd (rd : Reg) (d : Bool) (m : PtrMode) (rs : Reg) : EncodeWords.Statement (.andInd rd d m rs) := ⟨fun _ => rfl, rfl⟩

theorem EncodeWords.andReg (rd : Reg) (rs : Reg) : EncodeWords.Statement (.andReg rd rs) := ⟨fun _ => rfl, rfl⟩

theorem EncodeWords.andIm16 (rd : Reg) (rs : Reg) (im : Word) : EncodeWords.Statement (.andIm16 rd rs im) := ⟨fun _ => rfl, rfl⟩

theorem EncodeWords.andA16 (w : Bool) (rd : Reg) (rs : Reg) (a : Word) : EncodeWords.Statement (.andA16 w rd rs a) := ⟨fun _ => rfl, rfl⟩

theorem EncodeWords.andShift (k : Shift4) (rd : Reg) (nn : BitVec 2) (rs : Reg) : EncodeWords.Statement (.andShift k rd nn rs) := ⟨fun _ => rfl, rfl⟩

theorem EncodeWords.andA6 (rd : Reg) (a : BitVec 6) : EncodeWords.Statement (.andA6 rd a) := ⟨fun _ => rfl, rfl⟩

theorem EncodeWords.testBpIm6 (rd : Reg) (im : BitVec 6) : EncodeWords.Statement (.testBpIm6 rd im) := ⟨fun _ => rfl, rfl⟩

theorem EncodeWords.testIm6 (rd : Reg) (im : BitVec 6) : EncodeWords.Statement (.testIm6 rd im) := ⟨fun _ => rfl, rfl⟩

theorem EncodeWords.testInd (rd : Reg) (d : Bool) (m : PtrMode) (rs : Reg) : EncodeWords.Statement (.testInd rd d m rs) := ⟨fun _ => rfl, rfl⟩

theorem EncodeWords.testReg (rd : Reg) (rs : Reg) : EncodeWords.Statement (.testReg rd rs) := ⟨fun _ => rfl, rfl⟩

theorem EncodeWords.testIm16 (rd : Reg) (rs : Reg) (im : Word) : EncodeWords.Statement (.testIm16 rd rs im) := ⟨fun _ => rfl, rfl⟩

theorem EncodeWords.testA16 (w : Bool) (rd : Reg) (rs : Reg) (a : Word) : EncodeWords.Statement (.testA16 w rd rs a) := ⟨fun _ => rfl, rfl⟩

theorem EncodeWords.testShift (k : Shift4) (rd : Reg) (nn : BitVec 2) (rs : Reg) : EncodeWords.Statement (.testShift k rd nn rs) := ⟨fun _ => rfl, rfl⟩

theorem EncodeWords.testA6 (rd : Reg) (a : BitVec 6) : EncodeWords.Statement (.testA6 rd a) := ⟨fun _ => rfl, rfl⟩

theorem EncodeWords.storeBpIm6 (rd : Reg) (im : BitVec 6) : EncodeWords.Statement (.storeBpIm6 rd im) := ⟨fun _ => rfl, rfl⟩

theorem EncodeWords.storeInd (rd : Reg) (d : Bool) (m : PtrMode) (rs : Reg) : EncodeWords.Statement (.storeInd rd d m rs) := ⟨fun _ => rfl, rfl⟩

theorem EncodeWords.storeA16 (rd : Reg) (rs : Reg) (a : Word) : EncodeWords.Statement (.storeA16 rd rs a) := ⟨fun _ => rfl, rfl⟩

theorem EncodeWords.storeA6 (rd : Reg) (a : BitVec 6) : EncodeWords.Statement (.storeA6 rd a) := ⟨fun _ => rfl, rfl⟩

theorem EncodeWords.push (rd : Reg) (n : BitVec 3) (rs : Reg) : EncodeWords.Statement (.push rd n rs) := ⟨fun _ => rfl, rfl⟩

theorem EncodeWords.pop (rd : Reg) (n : BitVec 3) (rs : Reg) : EncodeWords.Statement (.pop rd n rs) := ⟨fun _ => rfl, rfl⟩

theorem EncodeWords.tstbRegReg (rd : Reg) (rs : Reg) : EncodeWords.Statement (.tstbRegReg rd rs) := ⟨fun _ => rfl, rfl⟩

theorem EncodeWords.tstbRegOff (rd : Reg) (off : BitVec 4) : EncodeWords.Statement (.tstbRegOff rd off) := ⟨fun _ => rfl, rfl⟩

theorem EncodeWords.tstbMemReg (rd : Reg) (d : Bool) (rs : Reg) : EncodeWords.Statement (.tstbMemReg rd d rs) := ⟨fun _ => rfl, rfl⟩

theorem EncodeWords.tstbMemOff (rd : Reg) (d : Bool) (off : BitVec 4) : EncodeWords.Statement (.tstbMemOff rd d off) := ⟨fun _ => rfl, rfl⟩

theorem EncodeWords.setbRegReg (rd : Reg) (rs : Reg) : EncodeWords.Statement (.setbRegReg rd rs) := ⟨fun _ => rfl, rfl⟩

theorem EncodeWords.setbRegOff (rd : Reg) (off : BitVec 4) : EncodeWords.Statement (.setbRegOff rd off) := ⟨fun _ => rfl, rfl⟩

theorem EncodeWords.setbMemReg (rd : Reg) (d : Bool) (rs : Reg) : EncodeWords.Statement (.setbMemReg rd d rs) := ⟨fun _ => rfl, rfl⟩

theorem EncodeWords.setbMemOff (rd : Reg) (d : Bool) (off : BitVec 4) : EncodeWords.Statement (.setbMemOff rd d off) := ⟨fun _ => rfl, rfl⟩

theorem EncodeWords.clrbRegReg (rd : Reg) (rs : Reg) : EncodeWords.Statement (.clrbRegReg rd rs) := ⟨fun _ => rfl, rfl⟩

theorem EncodeWords.clrbRegOff (rd : Reg) (off : BitVec 4) : EncodeWords.Statement (.clrbRegOff rd off) := ⟨fun _ => rfl, rfl⟩

theorem EncodeWords.clrbMemReg (rd : Reg) (d : Bool) (rs : Reg) : EncodeWords.Statement (.clrbMemReg rd d rs) := ⟨fun _ => rfl, rfl⟩

theorem EncodeWords.clrbMemOff (rd : Reg) (d : Bool) (off : BitVec 4) : EncodeWords.Statement (.clrbMemOff rd d off) := ⟨fun _ => rfl, rfl⟩

theorem EncodeWords.invbRegReg (rd : Reg) (rs : Reg) : EncodeWords.Statement (.invbRegReg rd rs) := ⟨fun _ => rfl, rfl⟩

theorem EncodeWords.invbRegOff (rd : Reg) (off : BitVec 4) : EncodeWords.Statement (.invbRegOff rd off) := ⟨fun _ => rfl, rfl⟩

theorem EncodeWords.invbMemReg (rd : Reg) (d : Bool) (rs : Reg) : EncodeWords.Statement (.invbMemReg rd d rs) := ⟨fun _ => rfl, rfl⟩

theorem EncodeWords.invbMemOff (rd : Reg) (d : Bool) (off : BitVec 4) : EncodeWords.Statement (.invbMemOff rd d off) := ⟨fun _ => rfl, rfl⟩

theorem EncodeWords.asr16 (rd : Reg) (rs : Reg) : EncodeWords.Statement (.asr16 rd rs) := ⟨fun _ => rfl, rfl⟩

theorem EncodeWords.asrOr16 (rd : Reg) (rs : Reg) : EncodeWords.Statement (.asrOr16 rd rs) := ⟨fun _ => rfl, rfl⟩

theorem EncodeWords.lsl16 (rd : Reg) (rs : Reg) : EncodeWords.Statement (.lsl16 rd rs) := ⟨fun _ => rfl, rfl⟩

theorem EncodeWords.lslOr16 (rd : Reg) (rs : Reg) : EncodeWords.Statement (.lslOr16 rd rs) := ⟨fun _ => rfl, rfl⟩

theorem EncodeWords.lsr16 (rd : Reg) (rs : Reg) : EncodeWords.Statement (.lsr16 rd rs) := ⟨fun _ => rfl, rfl⟩

theorem EncodeWords.lsrOr16 (rd : Reg) (rs : Reg) : EncodeWords.Statement (.lsrOr16 rd rs) := ⟨fun _ => rfl, rfl⟩

theorem EncodeWords.rol16 (rd : Reg) (rs : Reg) : EncodeWords.Statement (.rol16 rd rs) := ⟨fun _ => rfl, rfl⟩

theorem EncodeWords.ror16 (rd : Reg) (rs : Reg) : EncodeWords.Statement (.ror16 rd rs) := ⟨fun _ => rfl, rfl⟩

theorem EncodeWords.mulUu (rd : Reg) (rs : Reg) : EncodeWords.Statement (.mulUu rd rs) := ⟨fun _ => rfl, rfl⟩

theorem EncodeWords.mulUs (rd : Reg) (rs : Reg) : EncodeWords.Statement (.mulUs rd rs) := ⟨fun _ => rfl, rfl⟩

theorem EncodeWords.mulSs (rd : Reg) (rs : Reg) : EncodeWords.Statement (.mulSs rd rs) := ⟨fun _ => rfl, rfl⟩

theorem EncodeWords.mulsUu (rd : Reg) (n : BitVec 4) (rs : Reg) : EncodeWords.Statement (.mulsUu rd n rs) := ⟨fun _ => rfl, rfl⟩

theorem EncodeWords.mulsUs (rd : Reg) (n : BitVec 4) (rs : Reg) : EncodeWords.Statement (.mulsUs rd n rs) := ⟨fun _ => rfl, rfl⟩

theorem EncodeWords.mulsSs (rd : Reg) (n : BitVec 4) (rs : Reg) : EncodeWords.Statement (.mulsSs rd n rs) := ⟨fun _ => rfl, rfl⟩

theorem EncodeWords.int (f : Bool) (i : Bool) : EncodeWords.Statement (.int f i) := ⟨fun _ => rfl, rfl⟩

theorem EncodeWords.firMov (off : Bool) : EncodeWords.Statement (.firMov off) := ⟨fun _ => rfl, rfl⟩

theorem EncodeWords.fraction (on : Bool) : EncodeWords.Statement (.fraction on) := ⟨fun _ => rfl, rfl⟩

theorem EncodeWords.irq (on : Bool) : EncodeWords.Statement (.irq on) := ⟨fun _ => rfl, rfl⟩

theorem EncodeWords.secbank (on : Bool) : EncodeWords.Statement (.secbank on) := ⟨fun _ => rfl, rfl⟩

theorem EncodeWords.fiq (on : Bool) : EncodeWords.Statement (.fiq on) := ⟨fun _ => rfl, rfl⟩

theorem EncodeWords.irqnest (on : Bool) : EncodeWords.Statement (.irqnest on) := ⟨fun _ => rfl, rfl⟩

theorem EncodeWords.rsEqDs (rs : Reg) : EncodeWords.Statement (.rsEqDs rs) := ⟨fun _ => rfl, rfl⟩

theorem EncodeWords.dsEqRs (rs : Reg) : EncodeWords.Statement (.dsEqRs rs) := ⟨fun _ => rfl, rfl⟩

theorem EncodeWords.rsEqFr (rs : Reg) : EncodeWords.Statement (.rsEqFr rs) := ⟨fun _ => rfl, rfl⟩

theorem EncodeWords.frEqRs (rs : Reg) : EncodeWords.Statement (.frEqRs rs) := ⟨fun _ => rfl, rfl⟩

theorem EncodeWords.call (hi : Page) (lo : Word) : EncodeWords.Statement (.call hi lo) := ⟨fun _ => rfl, rfl⟩

theorem EncodeWords.extAddReg (ra : GReg) (rb : GReg) : EncodeWords.Statement (.extAddReg ra rb) := ⟨fun _ => rfl, rfl⟩

theorem EncodeWords.extAddIm16 (ra : GReg) (rb : GReg) (im : Word) : EncodeWords.Statement (.extAddIm16 ra rb im) := ⟨fun _ => rfl, rfl⟩

theorem EncodeWords.extAddA16 (w : Bool) (ra : GReg) (rb : GReg) (a : Word) : EncodeWords.Statement (.extAddA16 w ra rb a) := ⟨fun _ => rfl, rfl⟩

theorem EncodeWords.extAddInd (rx : XReg) (d : Bool) (m : PtrMode) (ry : XReg) : EncodeWords.Statement (.extAddInd rx d m ry) := ⟨fun _ => rfl, rfl⟩

theorem EncodeWords.extAddIm6 (rx : XReg) (im : BitVec 6) : EncodeWords.Statement (.extAddIm6 rx im) := ⟨fun _ => rfl, rfl⟩

theorem EncodeWords.extAddBpIm6 (rx : XReg) (im : BitVec 6) : EncodeWords.Statement (.extAddBpIm6 rx im) := ⟨fun _ => rfl, rfl⟩

theorem EncodeWords.extAddA6 (rx : XReg) (a : BitVec 6) : EncodeWords.Statement (.extAddA6 rx a) := ⟨fun _ => rfl, rfl⟩

theorem EncodeWords.extAdcReg (ra : GReg) (rb : GReg) : EncodeWords.Statement (.extAdcReg ra rb) := ⟨fun _ => rfl, rfl⟩

theorem EncodeWords.extAdcIm16 (ra : GReg) (rb : GReg) (im : Word) : EncodeWords.Statement (.extAdcIm16 ra rb im) := ⟨fun _ => rfl, rfl⟩

theorem EncodeWords.extAdcA16 (w : Bool) (ra : GReg) (rb : GReg) (a : Word) : EncodeWords.Statement (.extAdcA16 w ra rb a) := ⟨fun _ => rfl, rfl⟩

theorem EncodeWords.extAdcInd (rx : XReg) (d : Bool) (m : PtrMode) (ry : XReg) : EncodeWords.Statement (.extAdcInd rx d m ry) := ⟨fun _ => rfl, rfl⟩

theorem EncodeWords.extAdcIm6 (rx : XReg) (im : BitVec 6) : EncodeWords.Statement (.extAdcIm6 rx im) := ⟨fun _ => rfl, rfl⟩

theorem EncodeWords.extAdcBpIm6 (rx : XReg) (im : BitVec 6) : EncodeWords.Statement (.extAdcBpIm6 rx im) := ⟨fun _ => rfl, rfl⟩

theorem EncodeWords.extAdcA6 (rx : XReg) (a : BitVec 6) : EncodeWords.Statement (.extAdcA6 rx a) := ⟨fun _ => rfl, rfl⟩

theorem EncodeWords.extSubReg (ra : GReg) (rb : GReg) : EncodeWords.Statement (.extSubReg ra rb) := ⟨fun _ => rfl, rfl⟩

theorem EncodeWords.extSubIm16 (ra : GReg) (rb : GReg) (im : Word) : EncodeWords.Statement (.extSubIm16 ra rb im) := ⟨fun _ => rfl, rfl⟩

theorem EncodeWords.extSubA16 (w : Bool) (ra : GReg) (rb : GReg) (a : Word) : EncodeWords.Statement (.extSubA16 w ra rb a) := ⟨fun _ => rfl, rfl⟩

theorem EncodeWords.extSubInd (rx : XReg) (d : Bool) (m : PtrMode) (ry : XReg) : EncodeWords.Statement (.extSubInd rx d m ry) := ⟨fun _ => rfl, rfl⟩

theorem EncodeWords.extSubIm6 (rx : XReg) (im : BitVec 6) : EncodeWords.Statement (.extSubIm6 rx im) := ⟨fun _ => rfl, rfl⟩

theorem EncodeWords.extSubBpIm6 (rx : XReg) (im : BitVec 6) : EncodeWords.Statement (.extSubBpIm6 rx im) := ⟨fun _ => rfl, rfl⟩

theorem EncodeWords.extSubA6 (rx : XReg) (a : BitVec 6) : EncodeWords.Statement (.extSubA6 rx a) := ⟨fun _ => rfl, rfl⟩

theorem EncodeWords.extSbcReg (ra : GReg) (rb : GReg) : EncodeWords.Statement (.extSbcReg ra rb) := ⟨fun _ => rfl, rfl⟩

theorem EncodeWords.extSbcIm16 (ra : GReg) (rb : GReg) (im : Word) : EncodeWords.Statement (.extSbcIm16 ra rb im) := ⟨fun _ => rfl, rfl⟩

theorem EncodeWords.extSbcA16 (w : Bool) (ra : GReg) (rb : GReg) (a : Word) : EncodeWords.Statement (.extSbcA16 w ra rb a) := ⟨fun _ => rfl, rfl⟩

theorem EncodeWords.extSbcInd (rx : XReg) (d : Bool) (m : PtrMode) (ry : XReg) : EncodeWords.Statement (.extSbcInd rx d m ry) := ⟨fun _ => rfl, rfl⟩

theorem EncodeWords.extSbcIm6 (rx : XReg) (im : BitVec 6) : EncodeWords.Statement (.extSbcIm6 rx im) := ⟨fun _ => rfl, rfl⟩

theorem EncodeWords.extSbcBpIm6 (rx : XReg) (im : BitVec 6) : EncodeWords.Statement (.extSbcBpIm6 rx im) := ⟨fun _ => rfl, rfl⟩

theorem EncodeWords.extSbcA6 (rx : XReg) (a : BitVec 6) : EncodeWords.Statement (.extSbcA6 rx a) := ⟨fun _ => rfl, rfl⟩

theorem EncodeWords.extCmpReg (ra : GReg) (rb : GReg) : EncodeWords.Statement (.extCmpReg ra rb) := ⟨fun _ => rfl, rfl⟩

theorem EncodeWords.extCmpIm16 (ra : GReg) (rb : GReg) (im : Word) : EncodeWords.Statement (.extCmpIm16 ra rb im) := ⟨fun _ => rfl, rfl⟩

theorem EncodeWords.extCmpA16 (w : Bool) (ra : GReg) (rb : GReg) (a : Word) : EncodeWords.Statement (.extCmpA16 w ra rb a) := ⟨fun _ => rfl, rfl⟩

theorem EncodeWords.extCmpInd (rx : XReg) (d : Bool) (m : PtrMode) (ry : XReg) : EncodeWords.Statement (.extCmpInd rx d m ry) := ⟨fun _ => rfl, rfl⟩

theorem EncodeWords.extCmpIm6 (rx : XReg) (im : BitVec 6) : EncodeWords.Statement (.extCmpIm6 rx im) := ⟨fun _ => rfl, rfl⟩

theorem EncodeWords.extCmpBpIm6 (rx : XReg) (im : BitVec 6) : EncodeWords.Statement (.extCmpBpIm6 rx im) := ⟨fun _ => rfl, rfl⟩

theorem EncodeWords.extCmpA6 (rx : XReg) (a : BitVec 6) : EncodeWords.Statement (.extCmpA6 rx a) := ⟨fun _ => rfl, rfl⟩

theorem EncodeWords.extNegReg (ra : GReg) (rb : GReg) : EncodeWords.Statement (.extNegReg ra rb) := ⟨fun _ => rfl, rfl⟩

theorem EncodeWords.extNegIm16 (ra : GReg) (rb : GReg) (im : Word) : EncodeWords.Statement (.extNegIm16 ra rb im) := ⟨fun _ => rfl, rfl⟩

theorem EncodeWords.extNegA16 (w : Bool) (ra : GReg) (rb : GReg) (a : Word) : EncodeWords.Statement (.extNegA16 w ra rb a) := ⟨fun _ => rfl, rfl⟩

theorem EncodeWords.extNegInd (rx : XReg) (d : Bool) (m : PtrMode) (ry : XReg) : EncodeWords.Statement (.extNegInd rx d m ry) := ⟨fun _ => rfl, rfl⟩

theorem EncodeWords.extNegIm6 (rx : XReg) (im : BitVec 6) : EncodeWords.Statement (.extNegIm6 rx im) := ⟨fun _ => rfl, rfl⟩

theorem EncodeWords.extNegBpIm6 (rx : XReg) (im : BitVec 6) : EncodeWords.Statement (.extNegBpIm6 rx im) := ⟨fun _ => rfl, rfl⟩

theorem EncodeWords.extNegA6 (rx : XReg) (a : BitVec 6) : EncodeWords.Statement (.extNegA6 rx a) := ⟨fun _ => rfl, rfl⟩

theorem EncodeWords.extXorReg (ra : GReg) (rb : GReg) : EncodeWords.Statement (.extXorReg ra rb) := ⟨fun _ => rfl, rfl⟩

theorem EncodeWords.extXorIm16 (ra : GReg) (rb : GReg) (im : Word) : EncodeWords.Statement (.extXorIm16 ra rb im) := ⟨fun _ => rfl, rfl⟩

theorem EncodeWords.extXorA16 (w : Bool) (ra : GReg) (rb : GReg) (a : Word) : EncodeWords.Statement (.extXorA16 w ra rb a) := ⟨fun _ => rfl, rfl⟩

theorem EncodeWords.extXorInd (rx : XReg) (d : Bool) (m : PtrMode) (ry : XReg) : EncodeWords.Statement (.extXorInd rx d m ry) := ⟨fun _ => rfl, rfl⟩

theorem EncodeWords.extXorIm6 (rx : XReg) (im : BitVec 6) : EncodeWords.Statement (.extXorIm6 rx im) := ⟨fun _ => rfl, rfl⟩

theorem EncodeWords.extXorBpIm6 (rx : XReg) (im : BitVec 6) : EncodeWords.Statement (.extXorBpIm6 rx im) := ⟨fun _ => rfl, rfl⟩

theorem EncodeWords.extXorA6 (rx : XReg) (a : BitVec 6) : EncodeWords.Statement (.extXorA6 rx a) := ⟨fun _ => rfl, rfl⟩

theorem EncodeWords.extLoadReg (ra : GReg) (rb : GReg) : EncodeWords.Statement (.extLoadReg ra rb) := ⟨fun _ => rfl, rfl⟩

theorem EncodeWords.extLoadIm16 (ra : GReg) (rb : GReg) (im : Word) : EncodeWords.Statement (.extLoadIm16 ra rb im) := ⟨fun _ => rfl, rfl⟩

theorem EncodeWords.extLoadA16 (ra : GReg) (rb : GReg) (a : Word) : EncodeWords.Statement (.extLoadA16 ra rb a) := ⟨fun _ => rfl, rfl⟩

theorem EncodeWords.extLoadInd (rx : XReg) (d : Bool) (m : PtrMode) (ry : XReg) : EncodeWords.Statement (.extLoadInd rx d m ry) := ⟨fun _ => rfl, rfl⟩

theorem EncodeWords.extLoadIm6 (rx : XReg) (im : BitVec 6) : EncodeWords.Statement (.extLoadIm6 rx im) := ⟨fun _ => rfl, rfl⟩

theorem EncodeWords.extLoadBpIm6 (rx : XReg) (im : BitVec 6) : EncodeWords.Statement (.extLoadBpIm6 rx im) := ⟨fun _ => rfl, rfl⟩

theorem EncodeWords.extLoadA6 (rx : XReg) (a : BitVec 6) : EncodeWords.Statement (.extLoadA6 rx a) := ⟨fun _ => rfl, rfl⟩

theorem EncodeWords.extOrReg (ra : GReg) (rb : GReg) : EncodeWords.Statement (.extOrReg ra rb) := ⟨fun _ => rfl, rfl⟩

theorem EncodeWords.extOrIm16 (ra : GReg) (rb : GReg) (im : Word) : EncodeWords.Statement (.extOrIm16 ra rb im) := ⟨fun _ => rfl, rfl⟩

theorem EncodeWords.extOrA16 (w : Bool) (ra : GReg) (rb : GReg) (a : Word) : EncodeWords.Statement (.extOrA16 w ra rb a) := ⟨fun _ => rfl, rfl⟩

theorem EncodeWords.extOrInd (rx : XReg) (d : Bool) (m : PtrMode) (ry : XReg) : EncodeWords.Statement (.extOrInd rx d m ry) := ⟨fun _ => rfl, rfl⟩

theorem EncodeWords.extOrIm6 (rx : XReg) (im : BitVec 6) : EncodeWords.Statement (.extOrIm6 rx im) := ⟨fun _ => rfl, rfl⟩

theorem EncodeWords.extOrBpIm6 (rx : XReg) (im : BitVec 6) : EncodeWords.Statement (.extOrBpIm6 rx im) := ⟨fun _ => rfl, rfl⟩

theorem EncodeWords.extOrA6 (rx : XReg) (a : BitVec 6) : EncodeWords.Statement (.extOrA6 rx a) := ⟨fun _ => rfl, rfl⟩

theorem EncodeWords.extAndReg (ra : GReg) (rb : GReg) : EncodeWords.Statement (.extAndReg ra rb) := ⟨fun _ => rfl, rfl⟩

theorem EncodeWords.extAndIm16 (ra : GReg) (rb : GReg) (im : Word) : EncodeWords.Statement (.extAndIm16 ra rb im) := ⟨fun _ => rfl, rfl⟩

theorem EncodeWords.extAndA16 (w : Bool) (ra : GReg) (rb : GReg) (a : Word) : EncodeWords.Statement (.extAndA16 w ra rb a) := ⟨fun _ => rfl, rfl⟩

theorem EncodeWords.extAndInd (rx : XReg) (d : Bool) (m : PtrMode) (ry : XReg) : EncodeWords.Statement (.extAndInd rx d m ry) := ⟨fun _ => rfl, rfl⟩

theorem EncodeWords.extAndIm6 (rx : XReg) (im : BitVec 6) : EncodeWords.Statement (.extAndIm6 rx im) := ⟨fun _ => rfl, rfl⟩

theorem EncodeWords.extAndBpIm6 (rx : XReg) (im : BitVec 6) : EncodeWords.Statement (.extAndBpIm6 rx im) := ⟨fun _ => rfl, rfl⟩

theorem EncodeWords.extAndA6 (rx : XReg) (a : BitVec 6) : EncodeWords.Statement (.extAndA6 rx a) := ⟨fun _ => rfl, rfl⟩

theorem EncodeWords.extTestReg (ra : GReg) (rb : GReg) : EncodeWords.Statement (.extTestReg ra rb) := ⟨fun _ => rfl, rfl⟩

theorem EncodeWords.extTestIm16 (ra : GReg) (rb : GReg) (im : Word) : EncodeWords.Statement (.extTestIm16 ra rb im) := ⟨fun _ => rfl, rfl⟩

theorem EncodeWords.extTestA16 (w : Bool) (ra : GReg) (rb : GReg) (a : Word) : EncodeWords.Statement (.extTestA16 w ra rb a) := ⟨fun _ => rfl, rfl⟩

theorem EncodeWords.extTestInd (rx : XReg) (d : Bool) (m : PtrMode) (ry : XReg) : EncodeWords.Statement (.extTestInd rx d m ry) := ⟨fun _ => rfl, rfl⟩

theorem EncodeWords.extTestIm6 (rx : XReg) (im : BitVec 6) : EncodeWords.Statement (.extTestIm6 rx im) := ⟨fun _ => rfl, rfl⟩

theorem EncodeWords.extTestBpIm6 (rx : XReg) (im : BitVec 6) : EncodeWords.Statement (.extTestBpIm6 rx im) := ⟨fun _ => rfl, rfl⟩

theorem EncodeWords.extTestA6 (rx : XReg) (a : BitVec 6) : EncodeWords.Statement (.extTestA6 rx a) := ⟨fun _ => rfl, rfl⟩

theorem EncodeWords.extStoreA16 (ra : GReg) (rb : GReg) (a : Word) : EncodeWords.Statement (.extStoreA16 ra rb a) := ⟨fun _ => rfl, rfl⟩

theorem EncodeWords.extStoreInd (rx : XReg) (d : Bool) (m : PtrMode) (ry : XReg) : EncodeWords.Statement (.extStoreInd rx d m ry) := ⟨fun _ => rfl, rfl⟩

theorem EncodeWords.extStoreBpIm6 (rx : XReg) (im : BitVec 6) : EncodeWords.Statement (.extStoreBpIm6 rx im) := ⟨fun _ => rfl, rfl⟩

theorem EncodeWords.extStoreA6 (rx : XReg) (a : BitVec 6) : EncodeWords.Statement (.extStoreA6 rx a) := ⟨fun _ => rfl, rfl⟩

theorem EncodeWords.extPush (n : BitVec 3) (rx : XReg) (rb : GReg) : EncodeWords.Statement (.extPush n rx rb) := ⟨fun _ => rfl, rfl⟩

theorem EncodeWords.extPop (n : BitVec 3) (fld : BitVec 3) (rb : GReg) : EncodeWords.Statement (.extPop n fld rb) := ⟨fun _ => rfl, rfl⟩

theorem EncodeWords.retf : EncodeWords.Statement (.retf) := ⟨fun _ => rfl, rfl⟩

theorem EncodeWords.reti : EncodeWords.Statement (.reti) := ⟨fun _ => rfl, rfl⟩

theorem EncodeWords.gotoMr : EncodeWords.Statement (.gotoMr) := ⟨fun _ => rfl, rfl⟩

theorem EncodeWords.brk : EncodeWords.Statement (.brk) := ⟨fun _ => rfl, rfl⟩

theorem EncodeWords.callMr : EncodeWords.Statement (.callMr) := ⟨fun _ => rfl, rfl⟩

theorem EncodeWords.divs : EncodeWords.Statement (.divs) := ⟨fun _ => rfl, rfl⟩

theorem EncodeWords.divq : EncodeWords.Statement (.divq) := ⟨fun _ => rfl, rfl⟩

theorem EncodeWords.exp : EncodeWords.Statement (.exp) := ⟨fun _ => rfl, rfl⟩

theorem EncodeWords.nop : EncodeWords.Statement (.nop) := ⟨fun _ => rfl, rfl⟩

end Sys2Proof.Laws
end

