-- ==== Sys2Proof/Laws/Shape.lean ====
section
/-! SUPPORT. The meaning of an instruction from its shape: one arm per operand form where `exec` has one per
instruction, so that a proof over all instructions splits over 62 shapes. -/

namespace Sys2Proof.Laws

open Sys2Proof Sys2Proof.Machine

/-- The meaning of a shape. -/
def execShape (sh : Shape) (s : State) : Out :=
  match sh with
  | .retf => .next s.returnFar
  | .reti => .next s.returnInt
  | .branch c back im => branch c back im s
  | .dsIm6 im => .next (s.setDs im)
  | .goto hi lo => .next (s.jump (mkAddr hi lo))
  | .gotoMr => .next (s.jump (mrTarget s))
  | .extPrefix _ => .refused .extUnassigned
  | .bitA16 op d off a => bitMem op (mkAddr (dataPage s d) a) off s
  | .aluBpIm6 op rd im => aluBpIm6 op rd im s
  | .aluIm6 op rd im => aluIm6 op rd im s
  | .aluInd op rd d m rs => aluInd op rd d m rs s
  | .aluReg op rd rs => aluReg op rd rs s
  | .aluIm16 op rd rs im => aluIm16 op rd rs im s
  | .aluA16 op w rd rs a => aluA16 op w rd rs a s
  | .aluShift op k rd nn rs => aluShift op k rd nn rs s
  | .aluA6 op rd a => aluA6 op rd a s
  | .storeBpIm6 rd im => storeAt (bpEa s im) (s.reg rd) s
  | .storeInd rd d m rs => execStoreInd rd d m rs s
  | .storeA16 rd _ a => storeAt (a16Ea a) (s.reg rd) s
  | .storeA6 rd a => storeAt (a6Ea a) (s.reg rd) s
  | .push rd n rs => execPush rd n rs s
  | .pop rd n rs => execPop rd n rs s
  | .bitRegReg op rd rs => bitReg op rd (bitIndex s rs) s
  | .bitRegOff op rd off => bitReg op rd off s
  | .bitMemReg op rd d rs => bitMem op (bitEa s d rd) (bitIndex s rs) s
  | .bitMemOff op rd d off => bitMem op (bitEa s d rd) off s
  | .shift16 k rd rs => shift16 k rd rs s
  | .mul k rd rs => mulRegs k rd rs s
  | .muls k rd n rs => mulsRegs k rd n rs s
  | .int f i => .next { s with flags := { s.flags with f := f, i := i } }
  | .firMov off => .next { s with flags := { s.flags with fir := off } }
  | .fraction on => .next { s with flags := { s.flags with fra := on } }
  | .irq on => .next { s with flags := { s.flags with i := on } }
  | .secbank on => .next { s with flags := { s.flags with bnk := on } }
  | .fiq on => .next { s with flags := { s.flags with f := on } }
  | .irqnest on => .next { s with flags := { s.flags with ine := on } }
  | .brk => storing s (s.stackAddrs (.core .sp) 2) (s.enter .brk)
  | .callMr => callTo (mrTarget s) s
  | .divs => .next (divsStep s)
  | .divq => .next (divqStep s)
  | .exp => .next (s.setReg .r2 (redundantSigns (s.reg .r4)))
  | .nop => .next s
  | .rsEqDs rs => execRsEqDs rs s
  | .dsEqRs rs => .next (s.setDs ((s.reg rs).extractLsb' 0 6))
  | .rsEqFr rs => execRsEqFr rs s
  | .frEqRs rs => .next (s.setFr (s.reg rs))
  | .call hi lo => callTo (mkAddr hi lo) s
  | .extReg op ra rb => extReg op ra rb s
  | .extIm16 op ra rb im => extIm16 op ra rb im s
  | .extA16 op w ra rb a => extA16 op w ra rb a s
  | .extInd op rx d m ry => extInd op rx d m ry s
  | .extIm6 op rx im => extIm6 op rx im s
  | .extBpIm6 op rx im => extBpIm6 op rx im s
  | .extA6 op rx a => extA6 op rx a s
  | .extStoreA16 ra _ a => storeAt (a16Ea a) (s.greg ra) s
  | .extStoreInd rx d m ry => execExtStoreInd rx d m ry s
  | .extStoreBpIm6 rx im => storeAt (bpEa s im) (s.xreg rx) s
  | .extStoreA6 rx a => storeAt (a6Ea a) (s.xreg rx) s
  | .extPush n rx rb => execExtPush n rx rb s
  | .extPop n fld rb => execExtPop n fld rb s

/-- `exec` runs the meaning of the instruction's shape. -/
theorem exec_eq_execShape (i : Instr) (s : State) : exec i s = execShape i.shape s := by
  cases i <;> rfl

end Sys2Proof.Laws
end

