-- ==== Sys2Proof/Laws/Stack.lean ====
section
/-! SUPPORT. The stack, said once: what one push and one pop do, and what a list of them does. -/

namespace Sys2Proof.Laws

open Sys2Proof Sys2Proof.Machine

/-! ### One step of the pointer -/

/-- The word a stack pointer addresses is the first of the words pushed. -/
theorem stackAddr_eq_down (s : State) (g : GReg) : s.stackAddr g = stackDown s g 0 := by
  unfold State.stackAddr State.stackPage stackDown
  split <;> simp

theorem stackAddr_eq_up (s : State) (g : GReg) : s.stackAddr g = stackUp s g 0 := by
  unfold State.stackAddr State.stackPage stackUp
  split <;> simp

/-- A pointer step writes the pointer register, and SS in [1.3]; every other register stays. -/
theorem stepStack_greg (s : State) (g : GReg) (d : Int) :
    (s.stepStack g d).greg g =
      (if s.cfg.ver = .v13 then offsetOf (mkAddr s.ss (s.greg g) + BitVec.ofInt 22 d) else s.greg g + BitVec.ofInt 16 d) := by
  unfold State.stepStack State.stackAddr State.stackPage
  split
  · simp
  · simp

theorem stepStack_ss (s : State) (g : GReg) (d : Int) :
    (s.stepStack g d).ss =
      (if s.cfg.ver = .v13 then pageOf (mkAddr s.ss (s.greg g) + BitVec.ofInt 22 d) else s.ss) := by
  unfold State.stepStack State.stackAddr State.stackPage
  split
  · simp
  · simp

theorem stepStack_greg_other (s : State) (g q : GReg) (d : Int) (h : q ≠ g) :
    (s.stepStack g d).greg q = s.greg q := by
  have hs : ∀ (p : Page), ({ s with ss := p } : State).greg q = s.greg q := by
    intro p
    cases q with
    | core r => cases r <;> rfl
    | ext x => cases x <;> rfl
  unfold State.stepStack
  split
  · rw [setGreg_greg_other _ _ _ _ h, hs]
  · exact setGreg_greg_other _ _ _ _ h

theorem stepStack_status (s : State) (g : GReg) (d : Int) (h : g ≠ .core .sr) : (s.stepStack g d).status = s.status := by
  unfold State.stepStack
  split
  · rw [setGreg_status _ _ _ h]
  · exact setGreg_status _ _ _ h

theorem stepStack_pc (s : State) (g : GReg) (d : Int) (h : g ≠ .core .pc) : (s.stepStack g d).pc = s.pc := by
  unfold State.stepStack
  split
  · rw [setGreg_pc _ _ _ h]
  · exact setGreg_pc _ _ _ h

/-- A pointer step keeps the parameters, the pins, FR, MDS, SVC, the shift buffers and the bank not in use. -/
theorem stepStack_core (s : State) (g : GReg) (d : Int) :
    CoreSame s (s.stepStack g d) ∧ (s.stepStack g d).sb = s.sb := by
  unfold State.stepStack
  split
  · refine ⟨coreSame_trans (t := { s with ss := pageOf (s.stackAddr g + BitVec.ofInt 22 d) }) ?_
      (setGreg_sysSame _ _ _).1, by simp⟩
    exact ⟨rfl, rfl, rfl, rfl, rfl, rfl, rfl, rfl, rfl⟩
  · exact ⟨(setGreg_sysSame _ _ _).1, by simp⟩

/-- A pointer step leaves what every word reads as. -/
theorem stepStack_readWord (s : State) (g : GReg) (d : Int) (a : Addr) :
    (s.stepStack g d).readWord a = s.readWord a := by
  unfold State.readWord
  rw [stepStack_cfg, stepStack_mem, stepStack_devLog]

/-- A pointer step makes no DMA access happen. -/
theorem stepStack_laterOn (s : State) (g : GReg) (d : Int) : LaterOn s (s.stepStack g d) :=
  laterOn_of_eq (stepStack_core s g d).1.1 (stepStack_dma s g d)

/-! ### Addresses along the stack -/

theorem ofInt_neg_one (w : Nat) : BitVec.ofInt w (-1) = -1#w := by
  rw [BitVec.ofInt_neg]
  rfl

/-- The word below the stack pointer is its page and offset one step down. -/
theorem stepStack_down (s : State) (g : GReg) (i : Nat) :
    stackDown (s.stepStack g (-1)) g i = stackDown s g (i + 1) := by
  have hc := (stepStack_core s g (-1)).1.1
  unfold stackDown
  rw [hc, stepStack_greg, stepStack_ss]
  split
  · rw [mkAddr_parts, ofInt_neg_one, ← BitVec.sub_eq_add_neg, BitVec.sub_sub, BitVec.ofNat_add, BitVec.add_comm]
  · rw [ofInt_neg_one, ← BitVec.sub_eq_add_neg, BitVec.sub_sub, BitVec.ofNat_add, BitVec.add_comm]

/-- The word above the stack pointer is one step up. -/
theorem stepStack_up (s : State) (g : GReg) (i : Nat) : stackUp (s.stepStack g 1) g i = stackUp s g (i + 1) := by
  have hc := (stepStack_core s g 1).1.1
  have h1 : ∀ w : Nat, BitVec.ofInt w 1 = BitVec.ofNat w 1 := fun w => by
    apply BitVec.eq_of_toInt_eq
    rw [BitVec.toInt_ofInt, ← BitVec.ofInt_natCast, BitVec.toInt_ofInt]
    rfl
  unfold stackUp
  rw [hc, stepStack_greg, stepStack_ss]
  split
  · rw [mkAddr_parts, h1, BitVec.add_assoc, BitVec.ofNat_add, BitVec.add_comm (BitVec.ofNat 22 1)]
  · rw [h1, BitVec.add_assoc, BitVec.ofNat_add, BitVec.add_comm (BitVec.ofNat 16 1)]

/-- Addresses along the stack depend on the pointer, SS and the version alone. -/
theorem stackDown_congr {s t : State} {g : GReg} (h1 : t.cfg = s.cfg) (h2 : t.greg g = s.greg g) (h3 : t.ss = s.ss)
    (i : Nat) : stackDown t g i = stackDown s g i := by
  unfold stackDown; rw [h1, h2, h3]

theorem stackUp_congr {s t : State} {g : GReg} (h1 : t.cfg = s.cfg) (h2 : t.greg g = s.greg g) (h3 : t.ss = s.ss)
    (i : Nat) : stackUp t g i = stackUp s g i := by
  unfold stackUp; rw [h1, h2, h3]

/-- A step down leaves the pointer at the next address down. -/
theorem stepStack_downBy (s : State) (g : GReg) : StackDownBy g 1 s (s.stepStack g (-1)) := by
  unfold StackDownBy stackDown
  rw [stepStack_greg, stepStack_ss, ofInt_neg_one, ofInt_neg_one]
  split
  · exact ⟨by rw [BitVec.sub_eq_add_neg], by rw [BitVec.sub_eq_add_neg]⟩
  · exact ⟨by rw [offsetOf_mkAddr, BitVec.sub_eq_add_neg], rfl⟩

/-- Words fewer than 65536 apart along the stack are different. -/
theorem stackDown_ne (s : State) (g : GReg) (i j : Nat) (hi : i < 65536) (hj : j < 65536) (h : i ≠ j) :
    stackDown s g i ≠ stackDown s g j := by
  unfold stackDown
  split
  · intro e
    have e' := congrArg BitVec.toNat e
    simp only [BitVec.toNat_sub, BitVec.toNat_ofNat] at e'
    omega
  · intro e
    have e' := congrArg (fun a => (offsetOf a).toNat) e
    simp only [offsetOf_mkAddr, BitVec.toNat_sub, BitVec.toNat_ofNat] at e'
    have := (s.greg g).isLt
    omega

/-! ### A list of pushes -/

/-- One push: the word at the pointer, then the pointer one down. -/
theorem pushVia_eq (s : State) (g : GReg) (v : Word) :
    s.pushVia g v = (s.storeWord (stackDown s g 0) v).stepStack g (-1) := by
  rw [← stackAddr_eq_down]
  rfl

theorem pushVia_laterOn (s : State) (g : GReg) (v : Word) : LaterOn s (s.pushVia g v) :=
  laterOn_trans (storeWord_laterOn s _ v) (stepStack_laterOn _ g (-1))

/-- The word pushed reads back where DMA leaves RAM alone. -/
theorem pushVia_word (s : State) (g : GReg) (v : Word) (h : Memory.wf s.mem = true) (k : Kept s (stackDown s g 0)) :
    (s.pushVia g v).readWord (stackDown s g 0) = v := by
  rw [pushVia_eq, stepStack_readWord]
  exact storeWord_readWord_same s _ v h k.1

/-- A byte outside the word pushed is unchanged where DMA leaves it alone. -/
theorem pushVia_byte (s : State) (g : GReg) (v : Word) (k : Nat) (h1 : k / 2 ≠ (stackDown s g 0).toNat)
    (h2 : ¬ DmaWrites s (BitVec.ofNat 22 (k / 2))) :
    Memory.readByte (s.pushVia g v).mem k = Memory.readByte s.mem k := by
  rw [pushVia_eq, stepStack_mem]
  exact storeWord_byte s _ v k h1 h2

theorem pushVia_core (s : State) (g : GReg) (v : Word) :
    CoreSame s (s.pushVia g v) ∧ (s.pushVia g v).sb = s.sb := by
  unfold State.pushVia
  exact ⟨coreSame_trans (storeWord_sysSame _ _ _).1 (stepStack_core _ _ _).1, (stepStack_core _ _ _).2⟩

theorem pushVia_greg_other (s : State) (g q : GReg) (v : Word) (h : q ≠ g) : (s.pushVia g v).greg q = s.greg q := by
  unfold State.pushVia
  rw [stepStack_greg_other _ _ _ _ h, storeWord_greg]

theorem pushVia_status (s : State) (g : GReg) (v : Word) (h : g ≠ .core .sr) : (s.pushVia g v).status = s.status := by
  unfold State.pushVia
  rw [stepStack_status _ _ _ h, storeWord_status]

theorem pushVia_pc (s : State) (g : GReg) (v : Word) (h : g ≠ .core .pc) : (s.pushVia g v).pc = s.pc := by
  unfold State.pushVia
  rw [stepStack_pc _ _ _ h, storeWord_pc]

theorem pushVia_down (s : State) (g : GReg) (v : Word) (i : Nat) :
    stackDown (s.pushVia g v) g i = stackDown s g (i + 1) := by
  unfold State.pushVia
  rw [stepStack_down]
  exact stackDown_congr (storeWord_cfg _ _ _) (storeWord_greg _ _ _ _) (storeWord_ss _ _ _) (i + 1)

theorem pushVia_downBy (s : State) (g : GReg) (v : Word) : StackDownBy g 1 s (s.pushVia g v) := by
  have h := stepStack_downBy (s.storeWord (s.stackAddr g) v) g
  have hd := stackDown_congr (storeWord_cfg s (s.stackAddr g) v) (storeWord_greg s (s.stackAddr g) v g)
    (storeWord_ss s (s.stackAddr g) v) 1
  unfold StackDownBy at h ⊢
  rw [hd] at h
  exact h

/-- A push keeps the canonical form of memory. -/
theorem pushVia_wf (s : State) (g : GReg) (v : Word) (h : Memory.wf s.mem = true) :
    Memory.wf (s.pushVia g v).mem = true := by
  rw [pushVia_eq, stepStack_mem]
  exact storeWord_wf s _ v h

/-- What a list of pushes leaves, the `i`-th register of the list in the `i`-th word down. -/
def PushedList (g : GReg) (l : List GReg) (s t : State) : Prop :=
  (∀ i : Nat, (h : i < l.length) → Kept s (stackDown s g i) → t.readWord (stackDown s g i) = s.greg l[i]) ∧
    MemSameButStack g l.length s t ∧
    StackDownBy g l.length s t ∧ (∀ q : GReg, q ≠ g → t.greg q = s.greg q) ∧
    (g ≠ .core .sr → t.status = s.status) ∧ (g ≠ .core .pc → t.pc = s.pc) ∧ CoreSame s t ∧ t.sb = s.sb ∧
    Memory.wf t.mem = true ∧ LaterOn s t

theorem pushRegs_pushed (g : GReg) (l : List GReg) (s : State) (hw : Memory.wf s.mem = true) (hl : l.length < 65536)
    (hg : g ∉ l) : PushedList g l s (pushRegs g l s) := by
  induction l generalizing s with
  | nil =>
    refine ⟨fun i h => absurd h (by simp), fun k _ _ => rfl, ?_, fun q _ => rfl, fun _ => rfl, fun _ => rfl,
      ⟨rfl, rfl, rfl, rfl, rfl, rfl, rfl, rfl, rfl⟩, rfl, hw, laterOn_refl s⟩
    unfold StackDownBy
    simp only [pushRegs, List.length_nil, ← stackAddr_eq_down]
    unfold State.stackAddr State.stackPage
    split <;> simp
  | cons r l ih =>
    have hlen : l.length < 65536 := by simp at hl; omega
    have hr : r ≠ g := fun e => hg (by simp [e])
    have hnl : g ∉ l := fun e => hg (by simp [e])
    obtain ⟨i1, i2, i3, i4, i5, i6, i7, i8, i9, i10⟩ := ih (s.pushVia g (s.greg r)) (pushVia_wf s g _ hw) hlen hnl
    have hcore := pushVia_core s g (s.greg r)
    have hlat := pushVia_laterOn s g (s.greg r)
    simp only [pushRegs]
    refine ⟨?_, ?_, ?_, ?_, ?_, ?_, coreSame_trans hcore.1 i7, i8.trans hcore.2, i9, laterOn_trans hlat i10⟩
    · intro i h kept
      cases i with
      | zero =>
        have hk : ∀ k : Nat, k / 2 = (stackDown s g 0).toNat → Memory.readByte
            (pushRegs g l (s.pushVia g (s.greg r))).mem k = Memory.readByte (s.pushVia g (s.greg r)).mem k := by
          intro k hk
          refine i2 k (fun j hj e => ?_) (fun e => kept.2 (hlat.2 _ ?_))
          · rw [pushVia_down] at e
            have hne := stackDown_ne s g 0 (j + 1) (by omega) (by simp at hl; omega) (by omega)
            exact hne (BitVec.eq_of_toNat_eq (hk.symm.trans e))
          · rw [← ofNat_half _ k hk]
            exact e
        rw [List.getElem_cons_zero]
        refine (readWord_congr _ i7.1 ?_ hk).trans (pushVia_word s g _ hw kept)
        rw [hcore.1.1, kept.1]
        exact Backing.noConfusion
      | succ i =>
        have hi : i < l.length := by simpa using h
        have hne : l[i] ≠ g := fun e => hnl (e ▸ List.getElem_mem hi)
        have := i1 i hi
        rw [pushVia_down, pushVia_greg_other s g _ _ hne] at this
        simpa using this (Kept.later hlat kept)
    · intro k hk hd
      rw [i2 k (fun j hj => by
        rw [pushVia_down]
        exact hk (j + 1) (by simp; omega)) (fun e => hd (hlat.2 _ e))]
      exact pushVia_byte s g _ k (hk 0 (by simp)) hd
    · unfold StackDownBy at i3 ⊢
      rw [pushVia_down, hcore.1.1] at i3
      refine ⟨i3.1, ?_⟩
      rw [i3.2]
      split
      · rfl
      · rename_i hv
        have := (pushVia_downBy s g (s.greg r)).2
        rw [this, if_neg hv]
    · intro q hq
      rw [i4 q hq, pushVia_greg_other s g q _ hq]
    · intro h
      rw [i5 h, pushVia_status s g _ h]
    · intro h
      rw [i6 h, pushVia_pc s g _ h]

/-! ### A list of pops -/

/-- A step up leaves the pointer at the next address up. -/
theorem stepStack_upBy (s : State) (g : GReg) : StackUpBy g 1 s (s.stepStack g 1) := by
  have h1 : ∀ w : Nat, BitVec.ofInt w 1 = BitVec.ofNat w 1 := fun w => by
    apply BitVec.eq_of_toInt_eq
    rw [BitVec.toInt_ofInt, ← BitVec.ofInt_natCast, BitVec.toInt_ofInt]
    rfl
  unfold StackUpBy stackUp
  rw [stepStack_greg, stepStack_ss, h1, h1]
  split
  · exact ⟨rfl, rfl⟩
  · exact ⟨by rw [offsetOf_mkAddr], rfl⟩

/-- The word a pop loads is the next one up. -/
theorem popStep_load (s : State) (g : GReg) :
    (s.popStep g).load ((s.popStep g).stackAddr g) = (s.stepStack g 1).load (stackUp s g 1) := by
  unfold State.popStep
  rw [stackAddr_eq_up, stepStack_up]

/-- A steady word is popped as it reads. -/
theorem stepStack_load_word (s : State) (g : GReg) (d : Int) (a : Addr) (h : Steady s a) :
    ((s.stepStack g d).load a).1 = s.readWord a := by
  rw [load_word _ a (Steady.later (stepStack_laterOn s g d) h), stepStack_readWord]

/-- The flags of a load of POP change SR alone, and nothing in [1.2] and later. -/
theorem popFlags_same (s : State) (r : GReg) (v : Word) :
    SysSame s (popFlags s r v) ∧ ((popFlags s r v).mem = s.mem ∧ (popFlags s r v).dma = s.dma) ∧
      (popFlags s r v).pc = s.pc ∧ (∀ q : GReg, q ≠ .core .sr → (popFlags s r v).greg q = s.greg q) ∧
      (s.cfg.ver.is12Plus = true → popFlags s r v = s) ∧ (r = .core .sr ∨ r = .core .pc → popFlags s r v = s) := by
  have hnz : ∀ q : GReg, q ≠ .core .sr → (s.setNZ v).greg q = s.greg q := fun q h => status_greg s _ q h
  have hsys : SysSame s (s.setNZ v) := ⟨⟨rfl, rfl, rfl, rfl, rfl, rfl, rfl, rfl, rfl⟩, rfl, rfl⟩
  have hself : SysSame s s ∧ (s.mem = s.mem ∧ s.dma = s.dma) ∧ s.pc = s.pc ∧
      (∀ q : GReg, q ≠ .core .sr → s.greg q = s.greg q) ∧ (s.cfg.ver.is12Plus = true → s = s) ∧
      (r = .core .sr ∨ r = .core .pc → s = s) :=
    ⟨sysSame_refl s, ⟨rfl, rfl⟩, rfl, fun _ _ => rfl, fun _ => rfl, fun _ => rfl⟩
  have hcase : popFlags s r v = s ∨ (popFlags s r v = s.setNZ v ∧ ¬ (s.cfg.ver.is12Plus = true) ∧
      ¬ (r = .core .sr ∨ r = .core .pc)) := by
    unfold popFlags
    cases hv : s.cfg.ver with
    | v10 =>
      by_cases h : r = .core .sr ∨ r = .core .pc
      · exact .inl (if_pos h)
      · exact .inr ⟨if_neg h, Bool.false_ne_true, h⟩
    | v11 =>
      by_cases h : r = .core .sr ∨ r = .core .pc
      · exact .inl (if_pos h)
      · exact .inr ⟨if_neg h, Bool.false_ne_true, h⟩
    | v12 => exact .inl rfl
    | v13 => exact .inl rfl
    | v20 => exact .inl rfl
  rcases hcase with h | ⟨h, h12, hrs⟩
  · rw [h]; exact hself
  · rw [h]
    exact ⟨hsys, ⟨rfl, rfl⟩, rfl, hnz, fun e => absurd e h12, fun e => absurd e hrs⟩

/-- What a list of pops leaves, the `i`-th register of the list from the word `i + 1` up. SR as the pointer, or SR in the
list, is covered in [1.2] and later. -/
def PoppedList (g : GReg) (l : List GReg) (s t : State) : Prop :=
  (∀ i : Nat, (h : i < l.length) → l[i] ≠ .core .sr ∨ s.cfg.ver.is12Plus = true → Steady s (stackUp s g (i + 1)) →
      t.greg l[i] = s.readWord (stackUp s g (i + 1))) ∧
    StackUpBy g l.length s t ∧ (∀ q : GReg, q ≠ g → q ∉ l → q ≠ .core .sr → t.greg q = s.greg q) ∧
    (s.cfg.ver.is12Plus = true → g ≠ .core .sr → .core .sr ∉ l → t.status = s.status) ∧
    (g ≠ .core .pc → .core .pc ∉ l → t.pc = s.pc) ∧ CoreSame s t ∧ t.sb = s.sb ∧ MemSameBarDma s t ∧ LaterOn s t

theorem popRegs_popped (g : GReg) (l : List GReg) (s : State) (hn : l.Nodup) (hg : g ∉ l)
    (hsr : g ≠ .core .sr ∨ s.cfg.ver.is12Plus = true) : PoppedList g l s (popRegs g l s) := by
  induction l generalizing s with
  | nil =>
    refine ⟨fun i h => absurd h (by simp), ?_, fun q _ _ _ => rfl, fun _ _ _ => rfl, fun _ _ => rfl,
      ⟨rfl, rfl, rfl, rfl, rfl, rfl, rfl, rfl, rfl⟩, rfl, fun _ _ => rfl, laterOn_refl s⟩
    unfold StackUpBy
    simp only [popRegs, List.length_nil, ← stackAddr_eq_up]
    unfold State.stackAddr State.stackPage
    split <;> simp
  | cons r l ih =>
    obtain ⟨hrl, hnd⟩ := List.nodup_cons.mp hn
    have hr : r ≠ g := fun e => hg (by simp [e])
    have hgl : g ∉ l := fun e => hg (by simp [e])
    let y : Word × State := (s.stepStack g 1).load (stackUp s g 1)
    let u : State := popFlags (y.2.setGreg r y.1) r y.1
    have hu : popRegs g (r :: l) s = popRegs g l u := by
      simp only [popRegs, popStep_load]
      rfl
    have hst := stepStack_core s g 1
    have hpf := popFlags_same (y.2.setGreg r y.1) r y.1
    have hcore : CoreSame s u :=
      coreSame_trans hst.1 (coreSame_trans (load_sysSame _ _).1 (coreSame_trans (setGreg_sysSame _ _ _).1 hpf.1.1))
    have hsb : u.sb = s.sb := by
      rw [hpf.1.2.2, setGreg_sb]; exact hst.2
    have hss : u.ss = (s.stepStack g 1).ss := by
      rw [hpf.1.2.1, setGreg_ss]; rfl
    have hcfg : (y.2.setGreg r y.1).cfg = s.cfg := by
      rw [setGreg_cfg]; exact hst.1.1
    have hlat : LaterOn s u := by
      refine laterOn_trans (stepStack_laterOn s g 1) (laterOn_trans (load_laterOn _ (stackUp s g 1)) ?_)
      exact laterOn_of_eq (hpf.1.1.1.trans (setGreg_cfg _ _ _)) (hpf.2.1.2.trans (setGreg_dma _ _ _))
    have hmem : MemSameBarDma s u := by
      intro k hk
      rw [hpf.2.1.1, setGreg_mem,
        load_byte (s.stepStack g 1) (stackUp s g 1) k (fun e => hk ((stepStack_laterOn s g 1).2 _ e)), stepStack_mem]
    have hmid : ∀ q : GReg, (q ≠ .core .sr ∨ s.cfg.ver.is12Plus = true) → u.greg q = (y.2.setGreg r y.1).greg q := by
      intro q h
      rcases h with h | h
      · exact hpf.2.2.2.1 q h
      · exact congrArg (fun t : State => t.greg q) (hpf.2.2.2.2.1 (by rw [hcfg]; exact h))
    have hug : u.greg g = (s.stepStack g 1).greg g := by
      rw [hmid g hsr, setGreg_greg_other _ _ _ _ (Ne.symm hr)]
      exact load_greg _ _ _
    have hup : ∀ i : Nat, stackUp u g i = stackUp s g (i + 1) := by
      intro i
      rw [← stepStack_up]
      exact stackUp_congr (hcore.1.trans hst.1.1.symm) hug hss i
    have hoth : ∀ q : GReg, q ≠ g → q ≠ r → q ≠ .core .sr → u.greg q = s.greg q := by
      intro q h1 h2 h3
      rw [hmid q (.inl h3), setGreg_greg_other _ _ _ _ h2]
      exact (load_greg _ _ _).trans (stepStack_greg_other s g q 1 h1)
    obtain ⟨i1, i2, i3, i4, i5, i6, i7, i8, i9⟩ := ih u hnd hgl (by rw [hcore.1]; exact hsr)
    rw [hu]
    refine ⟨?_, ?_, ?_, ?_, ?_, coreSame_trans hcore i6, i7.trans hsb,
      fun k hk => (i8 k (fun e => hk (hlat.2 _ e))).trans (hmem k hk), laterOn_trans hlat i9⟩
    · intro i h hi steady
      cases i with
      | zero =>
        have hur : u.greg r = s.readWord (stackUp s g 1) := by
          rw [hmid r (by simpa using hi), setGreg_greg_same]
          exact stepStack_load_word s g 1 _ steady
        simp only [List.getElem_cons_zero]
        rw [← hur]
        by_cases h4 : r = .core .sr
        · subst h4
          have h3 : s.cfg.ver.is12Plus = true := by
            rcases hi with h3 | h3
            · exact absurd rfl h3
            · exact h3
          have h5 := i4 (by rw [hcore.1]; exact h3) (Ne.symm hr) hrl
          show srWordOf (popRegs g l u).cfg (popRegs g l u).status = srWordOf u.cfg u.status
          rw [h5, i6.1]
        · exact i3 r hr hrl h4
      | succ i =>
        have hi' : i < l.length := by simpa using h
        have := i1 i hi' (by rw [hcore.1]; simpa using hi)
        rw [hup] at this
        simp only [List.getElem_cons_succ]
        rw [this (Steady.later hlat steady)]
        exact readWord_congr _ hcore.1 steady.1 (fun k hk => hmem k (by rw [ofNat_half _ k hk]; exact steady.2))
    · unfold StackUpBy at i2 ⊢
      rw [hup, hcore.1] at i2
      refine ⟨i2.1, ?_⟩
      rw [i2.2]
      split
      · rfl
      · rename_i hv
        rw [hss, stepStack_ss, if_neg hv]
    · intro q h1 h2 h3
      rw [i3 q h1 (fun e => h2 (by simp [e])) h3, hoth q h1 (fun e => h2 (by simp [e])) h3]
    · intro h1 h2 h3
      have hrs : r ≠ .core .sr := fun e => h3 (by simp [e])
      rw [i4 (by rw [hcore.1]; exact h1) h2 (fun e => h3 (by simp [e]))]
      show (popFlags _ r y.1).status = _
      rw [hpf.2.2.2.2.1 (by rw [hcfg]; exact h1), setGreg_status _ _ _ hrs]
      exact stepStack_status s g 1 h2
    · intro h1 h2
      have hrp : r ≠ .core .pc := fun e => h2 (by simp [e])
      rw [i5 h1 (fun e => h2 (by simp [e])), hpf.2.2.1, setGreg_pc _ _ _ hrp]
      exact stepStack_pc s g 1 h1

/-! ### The page of a popped PC -/

/-- With a pointer other than SR the page is the one SR.CS holds. -/
theorem popPage_of_pointer (g : GReg) (l : List GReg) (s t : State) (h : g ≠ .core .sr) : popPage g l s t = t :=
  if_neg (fun e => h e.1)

/-- Without PC in the set nothing is to be done. -/
theorem popPage_of_set (g : GReg) (l : List GReg) (s t : State) (h : .core .pc ∉ l) : popPage g l s t = t :=
  if_neg (fun e => h e.2)

/-- With SR as the pointer and PC in the set the CS of `nextpc` stands, and nothing else changes. -/
theorem popPage_sr (l : List GReg) (s t : State) (h : .core .pc ∈ l) :
    popPage (.core .sr) l s t = { t with status := { t.status with cs := s.status.cs } } := if_pos ⟨rfl, h⟩

/-- Whatever the pointer and the set, nothing but SR.CS changes. -/
theorem popPage_same (g : GReg) (l : List GReg) (s t : State) :
    popPage g l s t = { t with status := { t.status with cs := (popPage g l s t).status.cs } } := by
  unfold popPage
  split <;> rfl

end Sys2Proof.Laws
end

