-- ==== Sys2Proof/Tests/Slice0.lean ====
section
/-! SUPPORT. Tests: the checks of WellFormed, the decoding of words written out from the encodings of the spec, vectors of
95_test_vectors.md, and a witness for the hypotheses of each obligation that has some. -/

namespace Sys2Proof.Tests

open Sys2Proof Sys2Proof.Machine

/-! ### WellFormed refuses an ill-formed term of each check -/

/-- The default parameters with another version. -/
def params (v : Version) : Params := { Params.default with ver := v }

theorem test_wf_refuses_bp_im6_pc : Instr.wellFormed (params .v12) (.addBpIm6 .pc 1#6) = false := by decide
theorem test_wf_refuses_im6_pc : Instr.wellFormed (params .v12) (.orIm6 .pc 1#6) = false := by decide
theorem test_wf_refuses_store_bp_pc : Instr.wellFormed (params .v12) (.storeBpIm6 .pc 1#6) = false := by decide
theorem test_wf_refuses_bit_reg_reg_pc : Instr.wellFormed (params .v12) (.setbRegReg .pc .r1) = false := by decide
theorem test_wf_refuses_bit_reg_off_pc : Instr.wellFormed (params .v12) (.tstbRegOff .pc 3#4) = false := by decide
theorem test_wf_refuses_bit_mem_reg_pc : Instr.wellFormed (params .v12) (.clrbMemReg .pc false .r1) = false := by decide
theorem test_wf_refuses_bit_mem_off_pc : Instr.wellFormed (params .v12) (.invbMemOff .pc true 3#4) = false := by decide
theorem test_wf_refuses_shift16_pc : Instr.wellFormed (params .v12) (.rol16 .pc .r1) = false := by decide
theorem test_wf_refuses_mul_pc : Instr.wellFormed (params .v12) (.mulUu .pc .r1) = false := by decide
theorem test_wf_refuses_muls_pc : Instr.wellFormed (params .v12) (.mulsSs .pc 3#4 .r1) = false := by decide
theorem test_wf_refuses_push_none : Instr.wellFormed (params .v12) (.push .r4 0#3 .sp) = false := by decide
theorem test_wf_refuses_pop_none : Instr.wellFormed (params .v12) (.pop .r1 0#3 .sp) = false := by decide
theorem test_wf_refuses_pop_that_is_retf : Instr.wellFormed (params .v12) (.pop .bp 2#3 .sp) = false := by decide
theorem test_wf_refuses_pop_that_is_reti : Instr.wellFormed (params .v12) (.pop .bp 3#3 .sp) = false := by decide
theorem test_wf_refuses_ext_push_none : Instr.wellFormed (params .v20) (.extPush 0#3 .r9 (.core .sp)) = false := by decide
theorem test_wf_refuses_ext_pop_none : Instr.wellFormed (params .v20) (.extPop 0#3 1#3 (.core .sp)) = false := by decide
theorem test_wf_refuses_prefix_of_an_ext_row : Instr.wellFormed (params .v20) (.extPrefix 0x0308#16) = false := by decide
theorem test_wf_refuses_ext_before_20 : Instr.wellFormed (params .v12) (.extAddReg (.ext .r8) (.ext .r9)) = false := by decide
theorem test_wf_refuses_bit_a16_before_20 : Instr.wellFormed (params .v12) (.setbA16 true 3#4 0x1234#16) = false := by decide
theorem test_wf_refuses_goto_of_10 : Instr.wellFormed (params .v10) (.goto 0#6 0#16) = false := by decide

theorem test_wf_accepts :
    Instr.wellFormed (params .v12) (.addIm6 .r1 1#6) = true ∧ Instr.wellFormed (params .v12) (.pop .bp 2#3 .r1) = true ∧
      Instr.wellFormed (params .v20) (.extPrefix 0x9110#16) = true := by decide

/-! ### Decoding of words written out from the table of the spec

Each pair is the words of one row of the opcode table, bit by bit from its encoding, and the instruction they stand for.
-/

/-- Every pair decodes as written, in [2.0], which has every row. -/
def allDecode (l : List (List Word × Instr)) : Bool := l.all fun p => decide (decodeWords Params.default p.1 = .ok p.2)

theorem test_decode_control_and_segments : allDecode [
  ([0b1001_101_010_010_000#16], .retf),
  ([0b1001_101_010_011_000#16], .reti),
  ([0b1111_111_000_101101#16], .dsIm6 45#6),
  ([0b1111_111_010_000011#16, 0x2345#16], .goto 3#6 0x2345#16),
  ([0b1111_111_011_000000#16], .gotoMr),
  ([0b1111_1111_1100_0000#16, 0x9110#16], .extPrefix 0x9110#16),
  ([0b1111_000_000_10_0_001#16], .rsEqDs .r1),
  ([0b1111_000_000_10_1_111#16], .dsEqRs .pc),
  ([0b1111_000_000_11_0_110#16], .rsEqFr .sr),
  ([0b1111_000_000_11_1_000#16], .frEqRs .sp),
  ([0b1111_000_001_000011#16, 0x2345#16], .call 3#6 0x2345#16),
  ([0b1111_000_001_000011#16, 0x2345#16], .call 3#6 0x2345#16)] = true := by decide

theorem test_decode_branches : allDecode [
  ([0b0000_111_00_1_101101#16], .jcc true 45#6),
  ([0b0001_111_00_0_101101#16], .jcs false 45#6),
  ([0b0010_111_00_1_101101#16], .jsc true 45#6),
  ([0b0011_111_00_0_101101#16], .jss false 45#6),
  ([0b0100_111_00_1_101101#16], .jne true 45#6),
  ([0b0101_111_00_0_101101#16], .jz false 45#6),
  ([0b0110_111_00_1_101101#16], .jpl true 45#6),
  ([0b0111_111_00_0_101101#16], .jmi false 45#6),
  ([0b1000_111_00_1_101101#16], .jbe true 45#6),
  ([0b1001_111_00_0_101101#16], .jnbe false 45#6),
  ([0b1010_111_00_1_101101#16], .jle true 45#6),
  ([0b1011_111_00_0_101101#16], .jnle false 45#6),
  ([0b1100_111_00_1_101101#16], .jvc true 45#6),
  ([0b1101_111_00_0_101101#16], .jvs false 45#6),
  ([0b1110_111_00_1_101101#16], .jmp true 45#6)] = true := by decide

theorem test_decode_tstb : allDecode [
  ([0b1111_0_1_1_001_00_1011#16, 0x6789#16], .tstbA16 true 11#4 0x6789#16),
  ([0b1110_100_000_00_0_110#16], .tstbRegReg .r4 .sr),
  ([0b1110_010_001_00_1011#16], .tstbRegOff .r2 11#4),
  ([0b1110_000_10_0_00_0_100#16], .tstbMemReg .sp false .r4),
  ([0b1110_101_11_1_00_1011#16], .tstbMemOff .bp true 11#4)] = true := by decide

theorem test_decode_setb : allDecode [
  ([0b1111_0_1_1_001_01_1011#16, 0x6789#16], .setbA16 true 11#4 0x6789#16),
  ([0b1110_011_000_01_0_111#16], .setbRegReg .r3 .pc),
  ([0b1110_001_001_01_1011#16], .setbRegOff .r1 11#4),
  ([0b1110_110_10_0_01_0_000#16], .setbMemReg .sr false .sp),
  ([0b1110_100_11_1_01_1011#16], .setbMemOff .r4 true 11#4)] = true := by decide

theorem test_decode_clrb : allDecode [
  ([0b1111_0_0_1_001_10_1011#16, 0x6789#16], .clrbA16 false 11#4 0x6789#16),
  ([0b1110_010_000_10_0_110#16], .clrbRegReg .r2 .sr),
  ([0b1110_000_001_10_1011#16], .clrbRegOff .sp 11#4),
  ([0b1110_101_10_0_10_0_100#16], .clrbMemReg .bp false .r4),
  ([0b1110_011_11_1_10_1011#16], .clrbMemOff .r3 true 11#4)] = true := by decide

theorem test_decode_invb : allDecode [
  ([0b1111_0_0_1_001_11_1011#16, 0x6789#16], .invbA16 false 11#4 0x6789#16),
  ([0b1110_001_000_11_0_111#16], .invbRegReg .r1 .pc),
  ([0b1110_110_001_11_1011#16], .invbRegOff .sr 11#4),
  ([0b1110_100_10_0_11_0_000#16], .invbMemReg .r4 false .sp),
  ([0b1110_010_11_1_11_1011#16], .invbMemOff .r2 true 11#4)] = true := by decide

theorem test_decode_add : allDecode [
  ([0b0000_110_000_101101#16], .addBpIm6 .sr 45#6),
  ([0b0000_100_001_101101#16], .addIm6 .r4 45#6),
  ([0b0000_010_011_0_00_000#16], .addInd .r2 false .keep .sp),
  ([0b0000_000_100_000_010#16], .addReg .sp .r2),
  ([0b0000_101_100_001_110#16, 0x9ABC#16], .addIm16 .bp .sr 0x9ABC#16),
  ([0b0000_011_100_010_100#16, 0x6789#16], .addA16 false .r3 .r4 0x6789#16),
  ([0b0000_001_100_011_100#16, 0x6789#16], .addA16 true .r1 .r4 0x6789#16),
  ([0b0000_110_1_001_10_001#16], .addShift .asr .sr 2#2 .r1),
  ([0b0000_100_1_010_11_111#16], .addShift .lsl .r4 3#2 .pc),
  ([0b0000_010_1_011_00_101#16], .addShift .lsr .r2 0#2 .bp),
  ([0b0000_000_1_100_01_001#16], .addShift .rol .sp 1#2 .r1),
  ([0b0000_101_1_101_10_010#16], .addShift .ror .bp 2#2 .r2),
  ([0b0000_011_111_110010#16], .addA6 .r3 50#6)] = true := by decide

theorem test_decode_adc : allDecode [
  ([0b0001_001_000_101101#16], .adcBpIm6 .r1 45#6),
  ([0b0001_110_001_101101#16], .adcIm6 .sr 45#6),
  ([0b0001_100_011_1_01_001#16], .adcInd .r4 true .postDec .r1),
  ([0b0001_010_100_000_111#16], .adcReg .r2 .pc),
  ([0b0001_000_100_001_101#16, 0x9ABC#16], .adcIm16 .sp .bp 0x9ABC#16),
  ([0b0001_101_100_010_000#16, 0x6789#16], .adcA16 false .bp .sp 0x6789#16),
  ([0b0001_011_100_011_010#16, 0x6789#16], .adcA16 true .r3 .r2 0x6789#16),
  ([0b0001_001_1_001_11_110#16], .adcShift .asr .r1 3#2 .sr),
  ([0b0001_110_1_010_00_011#16], .adcShift .lsl .sr 0#2 .r3),
  ([0b0001_100_1_011_01_101#16], .adcShift .lsr .r4 1#2 .bp),
  ([0b0001_010_1_100_10_001#16], .adcShift .rol .r2 2#2 .r1),
  ([0b0001_000_1_101_11_111#16], .adcShift .ror .sp 3#2 .pc),
  ([0b0001_101_111_110010#16], .adcA6 .bp 50#6)] = true := by decide

theorem test_decode_sub : allDecode [
  ([0b0010_011_000_101101#16], .subBpIm6 .r3 45#6),
  ([0b0010_001_001_101101#16], .subIm6 .r1 45#6),
  ([0b0010_110_011_0_10_111#16], .subInd .sr false .postInc .pc),
  ([0b0010_100_100_000_011#16], .subReg .r4 .r3),
  ([0b0010_010_100_001_100#16, 0x9ABC#16], .subIm16 .r2 .r4 0x9ABC#16),
  ([0b0010_000_100_010_001#16, 0x6789#16], .subA16 false .sp .r1 0x6789#16),
  ([0b0010_101_100_011_111#16, 0x6789#16], .subA16 true .bp .pc 0x6789#16),
  ([0b0010_011_1_001_00_101#16], .subShift .asr .r3 0#2 .bp),
  ([0b0010_001_1_010_01_000#16], .subShift .lsl .r1 1#2 .sp),
  ([0b0010_110_1_011_10_010#16], .subShift .lsr .sr 2#2 .r2),
  ([0b0010_100_1_100_11_110#16], .subShift .rol .r4 3#2 .sr),
  ([0b0010_010_1_101_00_011#16], .subShift .ror .r2 0#2 .r3),
  ([0b0010_000_111_110010#16], .subA6 .sp 50#6)] = true := by decide

theorem test_decode_sbc : allDecode [
  ([0b0011_101_000_101101#16], .sbcBpIm6 .bp 45#6),
  ([0b0011_011_001_101101#16], .sbcIm6 .r3 45#6),
  ([0b0011_001_011_1_11_101#16], .sbcInd .r1 true .preInc .bp),
  ([0b0011_110_100_000_000#16], .sbcReg .sr .sp),
  ([0b0011_100_100_001_010#16, 0x9ABC#16], .sbcIm16 .r4 .r2 0x9ABC#16),
  ([0b0011_010_100_010_110#16, 0x6789#16], .sbcA16 false .r2 .sr 0x6789#16),
  ([0b0011_000_100_011_011#16, 0x6789#16], .sbcA16 true .sp .r3 0x6789#16),
  ([0b0011_101_1_001_01_100#16], .sbcShift .asr .bp 1#2 .r4),
  ([0b0011_011_1_010_10_001#16], .sbcShift .lsl .r3 2#2 .r1),
  ([0b0011_001_1_011_11_111#16], .sbcShift .lsr .r1 3#2 .pc),
  ([0b0011_110_1_100_00_101#16], .sbcShift .rol .sr 0#2 .bp),
  ([0b0011_100_1_101_01_000#16], .sbcShift .ror .r4 1#2 .sp),
  ([0b0011_010_111_110010#16], .sbcA6 .r2 50#6)] = true := by decide

theorem test_decode_cmp : allDecode [
  ([0b0100_000_000_101101#16], .cmpBpIm6 .sp 45#6),
  ([0b0100_101_001_101101#16], .cmpIm6 .bp 45#6),
  ([0b0100_011_011_0_00_100#16], .cmpInd .r3 false .keep .r4),
  ([0b0100_001_100_000_010#16], .cmpReg .r1 .r2),
  ([0b0100_110_100_001_111#16, 0x9ABC#16], .cmpIm16 .sr .pc 0x9ABC#16),
  ([0b0100_100_100_010_101#16, 0x6789#16], .cmpA16 false .r4 .bp 0x6789#16),
  ([0b0100_010_100_011_000#16, 0x6789#16], .cmpA16 true .r2 .sp 0x6789#16),
  ([0b0100_000_1_001_10_010#16], .cmpShift .asr .sp 2#2 .r2),
  ([0b0100_101_1_010_11_110#16], .cmpShift .lsl .bp 3#2 .sr),
  ([0b0100_011_1_011_00_100#16], .cmpShift .lsr .r3 0#2 .r4),
  ([0b0100_001_1_100_01_100#16], .cmpShift .rol .r1 1#2 .r4),
  ([0b0100_110_1_101_10_001#16], .cmpShift .ror .sr 2#2 .r1),
  ([0b0100_100_111_110010#16], .cmpA6 .r4 50#6)] = true := by decide

theorem test_decode_neg : allDecode [
  ([0b0110_010_000_101101#16], .negBpIm6 .r2 45#6),
  ([0b0110_000_001_101101#16], .negIm6 .sp 45#6),
  ([0b0110_101_011_1_01_010#16], .negInd .bp true .postDec .r2),
  ([0b0110_011_100_000_110#16], .negReg .r3 .sr),
  ([0b0110_001_100_001_011#16, 0x9ABC#16], .negIm16 .r1 .r3 0x9ABC#16),
  ([0b0110_110_100_010_100#16, 0x6789#16], .negA16 false .sr .r4 0x6789#16),
  ([0b0110_100_100_011_001#16, 0x6789#16], .negA16 true .r4 .r1 0x6789#16),
  ([0b0110_010_1_001_11_111#16], .negShift .asr .r2 3#2 .pc),
  ([0b0110_000_1_010_00_101#16], .negShift .lsl .sp 0#2 .bp),
  ([0b0110_101_1_011_01_000#16], .negShift .lsr .bp 1#2 .sp),
  ([0b0110_011_1_100_10_010#16], .negShift .rol .r3 2#2 .r2),
  ([0b0110_001_1_101_11_110#16], .negShift .ror .r1 3#2 .sr),
  ([0b0110_110_111_110010#16], .negA6 .sr 50#6)] = true := by decide

theorem test_decode_xor : allDecode [
  ([0b1000_100_000_101101#16], .xorBpIm6 .r4 45#6),
  ([0b1000_010_001_101101#16], .xorIm6 .r2 45#6),
  ([0b1000_000_011_0_10_111#16], .xorInd .sp false .postInc .pc),
  ([0b1000_101_100_000_110#16], .xorReg .bp .sr),
  ([0b1000_011_100_001_000#16, 0x9ABC#16], .xorIm16 .r3 .sp 0x9ABC#16),
  ([0b1000_001_100_010_010#16, 0x6789#16], .xorA16 false .r1 .r2 0x6789#16),
  ([0b1000_110_100_011_111#16, 0x6789#16], .xorA16 true .sr .pc 0x6789#16),
  ([0b1000_100_1_001_00_011#16], .xorShift .asr .r4 0#2 .r3),
  ([0b1000_010_1_010_01_100#16], .xorShift .lsl .r2 1#2 .r4),
  ([0b1000_000_1_011_10_001#16], .xorShift .lsr .sp 2#2 .r1),
  ([0b1000_101_1_100_11_111#16], .xorShift .rol .bp 3#2 .pc),
  ([0b1000_011_1_101_00_101#16], .xorShift .ror .r3 0#2 .bp),
  ([0b1000_001_111_110010#16], .xorA6 .r1 50#6)] = true := by decide

theorem test_decode_load : allDecode [
  ([0b1001_110_000_101101#16], .loadBpIm6 .sr 45#6),
  ([0b1001_100_001_101101#16], .loadIm6 .r4 45#6),
  ([0b1001_010_011_1_11_011#16], .loadInd .r2 true .preInc .r3),
  ([0b1001_000_100_000_100#16], .loadReg .sp .r4),
  ([0b1001_101_100_001_001#16, 0x9ABC#16], .loadIm16 .bp .r1 0x9ABC#16),
  ([0b1001_011_100_010_111#16, 0x6789#16], .loadA16 .r3 .pc 0x6789#16),
  ([0b1001_001_1_001_00_101#16], .loadShift .asr .r1 0#2 .bp),
  ([0b1001_110_1_010_01_000#16], .loadShift .lsl .sr 1#2 .sp),
  ([0b1001_100_1_011_10_010#16], .loadShift .lsr .r4 2#2 .r2),
  ([0b1001_010_1_100_11_110#16], .loadShift .rol .r2 3#2 .sr),
  ([0b1001_000_1_101_00_011#16], .loadShift .ror .sp 0#2 .r3),
  ([0b1001_101_111_110010#16], .loadA6 .bp 50#6)] = true := by decide

theorem test_decode_or : allDecode [
  ([0b1010_011_000_101101#16], .orBpIm6 .r3 45#6),
  ([0b1010_001_001_101101#16], .orIm6 .r1 45#6),
  ([0b1010_110_011_1_11_101#16], .orInd .sr true .preInc .bp),
  ([0b1010_100_100_000_000#16], .orReg .r4 .sp),
  ([0b1010_010_100_001_011#16, 0x9ABC#16], .orIm16 .r2 .r3 0x9ABC#16),
  ([0b1010_000_100_010_110#16, 0x6789#16], .orA16 false .sp .sr 0x6789#16),
  ([0b1010_101_100_011_011#16, 0x6789#16], .orA16 true .bp .r3 0x6789#16),
  ([0b1010_011_1_001_01_100#16], .orShift .asr .r3 1#2 .r4),
  ([0b1010_001_1_010_10_010#16], .orShift .lsl .r1 2#2 .r2),
  ([0b1010_110_1_011_11_111#16], .orShift .lsr .sr 3#2 .pc),
  ([0b1010_100_1_100_00_101#16], .orShift .rol .r4 0#2 .bp),
  ([0b1010_010_1_101_01_000#16], .orShift .ror .r2 1#2 .sp),
  ([0b1010_000_111_110010#16], .orA6 .sp 50#6)] = true := by decide

theorem test_decode_and : allDecode [
  ([0b1011_101_000_101101#16], .andBpIm6 .bp 45#6),
  ([0b1011_011_001_101101#16], .andIm6 .r3 45#6),
  ([0b1011_001_011_0_00_100#16], .andInd .r1 false .keep .r4),
  ([0b1011_110_100_000_001#16], .andReg .sr .r1),
  ([0b1011_100_100_001_111#16, 0x9ABC#16], .andIm16 .r4 .pc 0x9ABC#16),
  ([0b1011_010_100_010_101#16, 0x6789#16], .andA16 false .r2 .bp 0x6789#16),
  ([0b1011_000_100_011_001#16, 0x6789#16], .andA16 true .sp .r1 0x6789#16),
  ([0b1011_101_1_001_10_010#16], .andShift .asr .bp 2#2 .r2),
  ([0b1011_011_1_010_11_110#16], .andShift .lsl .r3 3#2 .sr),
  ([0b1011_001_1_011_00_011#16], .andShift .lsr .r1 0#2 .r3),
  ([0b1011_110_1_100_01_100#16], .andShift .rol .sr 1#2 .r4),
  ([0b1011_100_1_101_10_001#16], .andShift .ror .r4 2#2 .r1),
  ([0b1011_010_111_110010#16], .andA6 .r2 50#6)] = true := by decide

theorem test_decode_test : allDecode [
  ([0b1100_000_000_101101#16], .testBpIm6 .sp 45#6),
  ([0b1100_101_001_101101#16], .testIm6 .bp 45#6),
  ([0b1100_011_011_1_01_010#16], .testInd .r3 true .postDec .r2),
  ([0b1100_001_100_000_110#16], .testReg .r1 .sr),
  ([0b1100_110_100_001_011#16, 0x9ABC#16], .testIm16 .sr .r3 0x9ABC#16),
  ([0b1100_100_100_010_101#16, 0x6789#16], .testA16 false .r4 .bp 0x6789#16),
  ([0b1100_010_100_011_001#16, 0x6789#16], .testA16 true .r2 .r1 0x6789#16),
  ([0b1100_000_1_001_11_111#16], .testShift .asr .sp 3#2 .pc),
  ([0b1100_101_1_010_00_110#16], .testShift .lsl .bp 0#2 .sr),
  ([0b1100_011_1_011_01_000#16], .testShift .lsr .r3 1#2 .sp),
  ([0b1100_001_1_100_10_010#16], .testShift .rol .r1 2#2 .r2),
  ([0b1100_110_1_101_11_111#16], .testShift .ror .sr 3#2 .pc),
  ([0b1100_100_111_110010#16], .testA6 .r4 50#6)] = true := by decide

theorem test_decode_store : allDecode [
  ([0b1101_010_000_101101#16], .storeBpIm6 .r2 45#6),
  ([0b1101_000_011_1_01_001#16], .storeInd .sp true .postDec .r1),
  ([0b1101_101_100_010_111#16, 0x6789#16], .storeA16 .bp .pc 0x6789#16),
  ([0b1101_011_111_110010#16], .storeA6 .r3 50#6)] = true := by decide

theorem test_decode_push : allDecode [
  ([0b1101_001_010_011_000#16], .push .r1 3#3 .sp)] = true := by decide

theorem test_decode_pop : allDecode [
  ([0b1001_110_010_011_010#16], .pop .sr 3#3 .r2)] = true := by decide

theorem test_decode_shift16 : allDecode [
  ([0b1110_000_10_000_1_110#16], .asr16 .sp .sr),
  ([0b1110_101_10_001_1_011#16], .asrOr16 .bp .r3),
  ([0b1110_011_10_010_1_100#16], .lsl16 .r3 .r4),
  ([0b1110_001_10_011_1_010#16], .lslOr16 .r1 .r2),
  ([0b1110_110_10_100_1_111#16], .lsr16 .sr .pc),
  ([0b1110_100_10_101_1_101#16], .lsrOr16 .r4 .bp),
  ([0b1110_010_10_110_1_000#16], .rol16 .r2 .sp),
  ([0b1110_000_10_111_1_010#16], .ror16 .sp .r2)] = true := by decide

theorem test_decode_multiplies : allDecode [
  ([0b111_0_101_0_00001_110#16], .mulUu .bp .sr),
  ([0b111_1_011_0_00001_100#16], .mulUs .r3 .r4),
  ([0b111_1_001_1_00001_100#16], .mulSs .r1 .r4),
  ([0b111_0_110_0_1_0011_001#16], .mulsUu .sr 3#4 .r1),
  ([0b111_1_100_0_1_0011_111#16], .mulsUs .r4 3#4 .pc),
  ([0b111_1_010_1_1_0011_101#16], .mulsSs .r2 3#4 .bp)] = true := by decide

theorem test_decode_modes : allDecode [
  ([0b1111_000_101_00_00_1_1#16], .int true true),
  ([0b1111_000_101_00_010_1#16], .firMov true),
  ([0b1111_000_101_00_011_1#16], .fraction true),
  ([0b1111_000_101_00_100_1#16], .irq true),
  ([0b1111_000_101_00_101_1#16], .secbank true),
  ([0b1111_000_101_00_11_1_0#16], .fiq true),
  ([0b1111_000_101_00_11_1_1#16], .irqnest true),
  ([0b1111_000_101_1_00_000#16], .brk),
  ([0b1111_000_101_1_00_001#16], .callMr),
  ([0b1111_000_101_1_00_010#16], .divs),
  ([0b1111_000_101_1_00_011#16], .divq),
  ([0b1111_000_101_1_00_100#16], .exp),
  ([0b1111_000_101_1_00_101#16], .nop)] = true := by decide

theorem test_decode_ext_add : allDecode [
  ([0xFFC0#16, 0b0000_101_0_0000_1101#16], .extAddReg (.core .bp) (.ext .r13)),
  ([0xFFC0#16, 0b0000_000_0_0100_0010#16, 0x9ABC#16], .extAddIm16 (.core .sp) (.core .r2) 0x9ABC#16),
  ([0xFFC0#16, 0b0000_011_1_0110_0111#16, 0x6789#16], .extAddA16 false (.ext .r11) (.core .pc) 0x6789#16),
  ([0xFFC0#16, 0b0000_110_1_0111_1100#16, 0x6789#16], .extAddA16 true (.ext .r14) (.ext .r12) 0x6789#16),
  ([0xFFC0#16, 0b0000_011_010_1_11_010#16], .extAddInd .r11 true .preInc .r10),
  ([0xFFC0#16, 0b0000_100_110_101101#16], .extAddIm6 .r12 45#6),
  ([0xFFC0#16, 0b0000_101_011_101101#16], .extAddBpIm6 .r13 45#6),
  ([0xFFC0#16, 0b0000_110_111_110010#16], .extAddA6 .r14 50#6)] = true := by decide

theorem test_decode_ext_adc : allDecode [
  ([0xFFC0#16, 0b0001_101_1_0000_0101#16], .extAdcReg (.ext .r13) (.core .bp)),
  ([0xFFC0#16, 0b0001_000_1_0100_1010#16, 0x9ABC#16], .extAdcIm16 (.ext .r8) (.ext .r10) 0x9ABC#16),
  ([0xFFC0#16, 0b0001_011_1_0110_1111#16, 0x6789#16], .extAdcA16 false (.ext .r11) (.ext .r15) 0x6789#16),
  ([0xFFC0#16, 0b0001_110_0_0111_0100#16, 0x6789#16], .extAdcA16 true (.core .sr) (.core .r4) 0x6789#16),
  ([0xFFC0#16, 0b0001_011_010_1_11_010#16], .extAdcInd .r11 true .preInc .r10),
  ([0xFFC0#16, 0b0001_100_110_101101#16], .extAdcIm6 .r12 45#6),
  ([0xFFC0#16, 0b0001_101_011_101101#16], .extAdcBpIm6 .r13 45#6),
  ([0xFFC0#16, 0b0001_110_111_110010#16], .extAdcA6 .r14 50#6)] = true := by decide

theorem test_decode_ext_sub : allDecode [
  ([0xFFC0#16, 0b0010_101_1_0000_1101#16], .extSubReg (.ext .r13) (.ext .r13)),
  ([0xFFC0#16, 0b0010_000_0_0100_0010#16, 0x9ABC#16], .extSubIm16 (.core .sp) (.core .r2) 0x9ABC#16),
  ([0xFFC0#16, 0b0010_011_0_0110_0111#16, 0x6789#16], .extSubA16 false (.core .r3) (.core .pc) 0x6789#16),
  ([0xFFC0#16, 0b0010_110_0_0111_1100#16, 0x6789#16], .extSubA16 true (.core .sr) (.ext .r12) 0x6789#16),
  ([0xFFC0#16, 0b0010_011_010_1_11_010#16], .extSubInd .r11 true .preInc .r10),
  ([0xFFC0#16, 0b0010_100_110_101101#16], .extSubIm6 .r12 45#6),
  ([0xFFC0#16, 0b0010_101_011_101101#16], .extSubBpIm6 .r13 45#6),
  ([0xFFC0#16, 0b0010_110_111_110010#16], .extSubA6 .r14 50#6)] = true := by decide

theorem test_decode_ext_sbc : allDecode [
  ([0xFFC0#16, 0b0011_101_0_0000_0101#16], .extSbcReg (.core .bp) (.core .bp)),
  ([0xFFC0#16, 0b0011_000_0_0100_1010#16, 0x9ABC#16], .extSbcIm16 (.core .sp) (.ext .r10) 0x9ABC#16),
  ([0xFFC0#16, 0b0011_011_1_0110_1111#16, 0x6789#16], .extSbcA16 false (.ext .r11) (.ext .r15) 0x6789#16),
  ([0xFFC0#16, 0b0011_110_1_0111_0100#16, 0x6789#16], .extSbcA16 true (.ext .r14) (.core .r4) 0x6789#16),
  ([0xFFC0#16, 0b0011_011_010_1_11_010#16], .extSbcInd .r11 true .preInc .r10),
  ([0xFFC0#16, 0b0011_100_110_101101#16], .extSbcIm6 .r12 45#6),
  ([0xFFC0#16, 0b0011_101_011_101101#16], .extSbcBpIm6 .r13 45#6),
  ([0xFFC0#16, 0b0011_110_111_110010#16], .extSbcA6 .r14 50#6)] = true := by decide

theorem test_decode_ext_cmp : allDecode [
  ([0xFFC0#16, 0b0100_101_1_0000_1101#16], .extCmpReg (.ext .r13) (.ext .r13)),
  ([0xFFC0#16, 0b0100_000_1_0100_0010#16, 0x9ABC#16], .extCmpIm16 (.ext .r8) (.core .r2) 0x9ABC#16),
  ([0xFFC0#16, 0b0100_011_1_0110_0111#16, 0x6789#16], .extCmpA16 false (.ext .r11) (.core .pc) 0x6789#16),
  ([0xFFC0#16, 0b0100_110_0_0111_1100#16, 0x6789#16], .extCmpA16 true (.core .sr) (.ext .r12) 0x6789#16),
  ([0xFFC0#16, 0b0100_011_010_1_11_010#16], .extCmpInd .r11 true .preInc .r10),
  ([0xFFC0#16, 0b0100_100_110_101101#16], .extCmpIm6 .r12 45#6),
  ([0xFFC0#16, 0b0100_101_011_101101#16], .extCmpBpIm6 .r13 45#6),
  ([0xFFC0#16, 0b0100_110_111_110010#16], .extCmpA6 .r14 50#6)] = true := by decide

theorem test_decode_ext_neg : allDecode [
  ([0xFFC0#16, 0b0110_101_1_0000_0101#16], .extNegReg (.ext .r13) (.core .bp)),
  ([0xFFC0#16, 0b0110_000_0_0100_1010#16, 0x9ABC#16], .extNegIm16 (.core .sp) (.ext .r10) 0x9ABC#16),
  ([0xFFC0#16, 0b0110_011_0_0110_1111#16, 0x6789#16], .extNegA16 false (.core .r3) (.ext .r15) 0x6789#16),
  ([0xFFC0#16, 0b0110_110_0_0111_0100#16, 0x6789#16], .extNegA16 true (.core .sr) (.core .r4) 0x6789#16),
  ([0xFFC0#16, 0b0110_011_010_1_11_010#16], .extNegInd .r11 true .preInc .r10),
  ([0xFFC0#16, 0b0110_100_110_101101#16], .extNegIm6 .r12 45#6),
  ([0xFFC0#16, 0b0110_101_011_101101#16], .extNegBpIm6 .r13 45#6),
  ([0xFFC0#16, 0b0110_110_111_110010#16], .extNegA6 .r14 50#6)] = true := by decide

theorem test_decode_ext_xor : allDecode [
  ([0xFFC0#16, 0b1000_101_0_0000_1101#16], .extXorReg (.core .bp) (.ext .r13)),
  ([0xFFC0#16, 0b1000_000_0_0100_0010#16, 0x9ABC#16], .extXorIm16 (.core .sp) (.core .r2) 0x9ABC#16),
  ([0xFFC0#16, 0b1000_011_1_0110_0111#16, 0x6789#16], .extXorA16 false (.ext .r11) (.core .pc) 0x6789#16),
  ([0xFFC0#16, 0b1000_110_1_0111_1100#16, 0x6789#16], .extXorA16 true (.ext .r14) (.ext .r12) 0x6789#16),
  ([0xFFC0#16, 0b1000_011_010_1_11_010#16], .extXorInd .r11 true .preInc .r10),
  ([0xFFC0#16, 0b1000_100_110_101101#16], .extXorIm6 .r12 45#6),
  ([0xFFC0#16, 0b1000_101_011_101101#16], .extXorBpIm6 .r13 45#6),
  ([0xFFC0#16, 0b1000_110_111_110010#16], .extXorA6 .r14 50#6)] = true := by decide

theorem test_decode_ext_load : allDecode [
  ([0xFFC0#16, 0b1001_101_1_0000_0101#16], .extLoadReg (.ext .r13) (.core .bp)),
  ([0xFFC0#16, 0b1001_000_1_0100_1010#16, 0x9ABC#16], .extLoadIm16 (.ext .r8) (.ext .r10) 0x9ABC#16),
  ([0xFFC0#16, 0b1001_011_1_0110_1111#16, 0x6789#16], .extLoadA16 (.ext .r11) (.ext .r15) 0x6789#16),
  ([0xFFC0#16, 0b1001_010_010_1_10_111#16], .extLoadInd .r10 true .postInc .r15),
  ([0xFFC0#16, 0b1001_011_110_101101#16], .extLoadIm6 .r11 45#6),
  ([0xFFC0#16, 0b1001_100_011_101101#16], .extLoadBpIm6 .r12 45#6),
  ([0xFFC0#16, 0b1001_101_111_110010#16], .extLoadA6 .r13 50#6)] = true := by decide

theorem test_decode_ext_or : allDecode [
  ([0xFFC0#16, 0b1010_010_1_0000_1000#16], .extOrReg (.ext .r10) (.ext .r8)),
  ([0xFFC0#16, 0b1010_101_1_0100_1101#16, 0x9ABC#16], .extOrIm16 (.ext .r13) (.ext .r13) 0x9ABC#16),
  ([0xFFC0#16, 0b1010_000_0_0110_0010#16, 0x6789#16], .extOrA16 false (.core .sp) (.core .r2) 0x6789#16),
  ([0xFFC0#16, 0b1010_011_0_0111_0111#16, 0x6789#16], .extOrA16 true (.core .r3) (.core .pc) 0x6789#16),
  ([0xFFC0#16, 0b1010_010_010_1_10_111#16], .extOrInd .r10 true .postInc .r15),
  ([0xFFC0#16, 0b1010_011_110_101101#16], .extOrIm6 .r11 45#6),
  ([0xFFC0#16, 0b1010_100_011_101101#16], .extOrBpIm6 .r12 45#6),
  ([0xFFC0#16, 0b1010_101_111_110010#16], .extOrA6 .r13 50#6)] = true := by decide

theorem test_decode_ext_and : allDecode [
  ([0xFFC0#16, 0b1011_010_0_0000_0000#16], .extAndReg (.core .r2) (.core .sp)),
  ([0xFFC0#16, 0b1011_101_0_0100_0101#16, 0x9ABC#16], .extAndIm16 (.core .bp) (.core .bp) 0x9ABC#16),
  ([0xFFC0#16, 0b1011_000_0_0110_1010#16, 0x6789#16], .extAndA16 false (.core .sp) (.ext .r10) 0x6789#16),
  ([0xFFC0#16, 0b1011_011_1_0111_1111#16, 0x6789#16], .extAndA16 true (.ext .r11) (.ext .r15) 0x6789#16),
  ([0xFFC0#16, 0b1011_010_010_1_10_111#16], .extAndInd .r10 true .postInc .r15),
  ([0xFFC0#16, 0b1011_011_110_101101#16], .extAndIm6 .r11 45#6),
  ([0xFFC0#16, 0b1011_100_011_101101#16], .extAndBpIm6 .r12 45#6),
  ([0xFFC0#16, 0b1011_101_111_110010#16], .extAndA6 .r13 50#6)] = true := by decide

theorem test_decode_ext_test : allDecode [
  ([0xFFC0#16, 0b1100_010_0_0000_1000#16], .extTestReg (.core .r2) (.ext .r8)),
  ([0xFFC0#16, 0b1100_101_1_0100_1101#16, 0x9ABC#16], .extTestIm16 (.ext .r13) (.ext .r13) 0x9ABC#16),
  ([0xFFC0#16, 0b1100_000_1_0110_0010#16, 0x6789#16], .extTestA16 false (.ext .r8) (.core .r2) 0x6789#16),
  ([0xFFC0#16, 0b1100_011_1_0111_0111#16, 0x6789#16], .extTestA16 true (.ext .r11) (.core .pc) 0x6789#16),
  ([0xFFC0#16, 0b1100_010_010_1_10_111#16], .extTestInd .r10 true .postInc .r15),
  ([0xFFC0#16, 0b1100_011_110_101101#16], .extTestIm6 .r11 45#6),
  ([0xFFC0#16, 0b1100_100_011_101101#16], .extTestBpIm6 .r12 45#6),
  ([0xFFC0#16, 0b1100_101_111_110010#16], .extTestA6 .r13 50#6)] = true := by decide

theorem test_decode_ext_store : allDecode [
  ([0xFFC0#16, 0b1101_010_1_0110_0000#16, 0x6789#16], .extStoreA16 (.ext .r10) (.core .sp) 0x6789#16),
  ([0xFFC0#16, 0b1101_111_010_1_11_110#16], .extStoreInd .r15 true .preInc .r14),
  ([0xFFC0#16, 0b1101_000_011_101101#16], .extStoreBpIm6 .r8 45#6),
  ([0xFFC0#16, 0b1101_001_111_110010#16], .extStoreA6 .r9 50#6)] = true := by decide

theorem test_decode_ext_push : allDecode [
  ([0xFFC0#16, 0b1_101_110_0_0010_0100#16], .extPush 5#3 .r14 (.core .r4))] = true := by decide

theorem test_decode_ext_pop : allDecode [
  ([0xFFC0#16, 0b0_101_110_0_0010_1001#16], .extPop 5#3 6#3 (.ext .r9))] = true := by decide

/-- Words the spec lists as unassigned, and register fields out of range, decode to nothing (R144). -/
def refused (v : Version) (w : Word) : Bool :=
  match decodeWords (params v) [w, 0, 0] with
  | .ok _ => false
  | .error _ => true

theorem test_decode_refuses : [0x5E80#16, 0x7000#16, 0x0080#16, 0x9080#16, 0xD080#16, 0xEE80#16, 0xF150#16, 0xF166#16,
    0xF100#16, 0xFF00#16, 0xFFC0#16].all (refused .v12) = true := by decide

theorem test_decode_store_w_parameter :
    decodeWords { Params.default with storeW := true } [0xD318#16, 0x2480#16] = .ok (.storeA16 .r1 .sp 0x2480#16) ∧
      decodeWords Params.default [0xD310#16, 0x2480#16] = .ok (.storeA16 .r1 .sp 0x2480#16) := by decide

/-! ### Vectors of 95_test_vectors.md: one step -/

/-- Memory with the listed words. -/
def memOf (l : List (Nat × Nat)) : Memory :=
  l.foldl (fun m p => Memory.writeWord m (BitVec.ofNat 22 p.1) (BitVec.ofNat 16 p.2)) []

/-- The state after reset of version `v` at address `a` with SR, FR, registers and memory words given. -/
def st (v : Version) (a : Nat) (sr fr : Nat) (rs : List (GReg × Nat)) (mem : List (Nat × Nat)) : State :=
  let s : State := { State.reset with cfg := params v, mem := memOf mem, pc := BitVec.ofNat 16 a }
  let s := (s.setSr (BitVec.ofNat 16 (sr / 64 * 64 + a / 65536))).setFr (BitVec.ofNat 16 fr)
  rs.foldl (fun t p => t.setGreg p.1 (BitVec.ofNat 16 p.2)) s

/-- What one step leaves, as numbers; nothing where it stops. -/
def ran (s : State) (f : State → List Nat) : Option (List Nat) :=
  match step s with
  | .next t => some (f t)
  | .fault _ => none
  | .refused _ => none

/-- The word at an address, as a number. -/
def at_ (t : State) (a : Nat) : Nat := (t.readWord (BitVec.ofNat 22 a)).toNat

/-- Vector B2.1. -/
theorem test_add_im6_1 :
    (ran (st .v12 0x8000 0x0 0x8 [(.core .r1, 0xFFC1)] [(0x8000, 0x27F)]) fun t =>
      [(t.greg (.core .r1)).toNat, t.srWord.toNat, t.nextPc.toNat]) = some [0x0, 0x140, 0x8001] := by decide

/-- Vector B2.2. -/
theorem test_add_im16_1 :
    (ran (st .v12 0x8000 0x0 0x8 [(.core .r1, 0x8000)] [(0x8000, 0x509), (0x8001, 0x8000)]) fun t =>
      [(t.greg (.core .r2)).toNat, t.srWord.toNat, t.nextPc.toNat]) = some [0x0, 0x1C0, 0x8002] := by decide

/-- Vector B2.3. -/
theorem test_sub_bp_im6_1 :
    (ran (st .v12 0x8000 0x0 0x8 [(.core .r3, 0x8000), (.core .bp, 0xFFFF)] [(0x1, 0x1), (0x8000, 0x2602)]) fun t =>
      [(t.greg (.core .r3)).toNat, t.srWord.toNat]) = some [0x7FFF, 0xC0] := by decide

/-- Vector B2.4. -/
theorem test_and_a6_1 :
    (ran (st .v12 0x8000 0xC0 0x8 [(.core .r4, 0xF0F0)] [(0x3F, 0xF0F), (0x8000, 0xB9FF)]) fun t =>
      [(t.greg (.core .r4)).toNat, t.srWord.toNat]) = some [0x0, 0x1C0] := by decide

/-- Vector B2.5. -/
theorem test_xor_a16_1 :
    (ran (st .v12 0x8000 0x0 0x8 [(.core .r2, 0xFF00)] [(0x1234, 0xFF0), (0x8000, 0x8312), (0x8001, 0x1234)]) fun t =>
      [(t.greg (.core .r1)).toNat, t.srWord.toNat, t.nextPc.toNat]) = some [0xF0F0, 0x200, 0x8002] := by decide

/-- Vector B2.6. -/
theorem test_add_a16_1 :
    (ran (st .v12 0x8000 0x0 0x8 [(.core .r1, 0x7FFF), (.core .r2, 0x1)] [(0x1234, 0xAAAA), (0x8000, 0x31A), (0x8001, 0x1234)]) fun t =>
      [at_ t 0x1234, t.srWord.toNat, (t.greg (.core .r1)).toNat, (t.greg (.core .r2)).toNat]) = some [0x8000, 0x200, 0x7FFF, 0x1] := by decide

/-- Vector B2.7. -/
theorem test_sbc_reg_1 :
    (ran (st .v12 0x8000 0x0 0x8 [] [(0x8000, 0x3501)]) fun t =>
      [(t.greg (.core .r2)).toNat, t.srWord.toNat]) = some [0xFFFF, 0x280] := by decide

/-- Vector B2.9. -/
theorem test_neg_reg_1 :
    (ran (st .v12 0x8000 0xC0 0x8 [(.core .r2, 0x8000)] [(0x8000, 0x6302)]) fun t =>
      [(t.greg (.core .r1)).toNat, t.srWord.toNat]) = some [0x8000, 0x2C0] := by decide

/-- Vector B2.10. -/
theorem test_test_im16_1 :
    (ran (st .v12 0x8000 0x0 0x8 [(.core .r1, 0x8001)] [(0x8000, 0xC309), (0x8001, 0x8000)]) fun t =>
      [t.srWord.toNat, (t.greg (.core .r1)).toNat]) = some [0x200, 0x8001] := by decide

/-- Vector B2.11. -/
theorem test_cmp_reg_1 :
    (ran (st .v12 0x12001 0x0 0x8 [(.core .r1, 0x5), (.core .r2, 0x7)] [(0x12001, 0x4302)]) fun t =>
      [t.srWord.toNat]) = some [0x281] := by decide

/-- Vector B2.12. -/
theorem test_load_reg_1 :
    (ran (st .v12 0x18000 0x340 0x8 [(.core .r1, 0x4000)] [(0x18000, 0x9F01)]) fun t =>
      [t.nextPc.toNat, t.srWord.toNat]) = some [0x14000, 0x341] := by decide

/-- Vector B2.13. -/
theorem test_add_reg_1 :
    (ran (st .v11 0x1FFFF 0x0 0x8 [(.core .r1, 0x10)] [(0x1FFFF, 0xF01)]) fun t =>
      [t.nextPc.toNat, t.srWord.toNat]) = some [0x20010, 0x2] := by decide

/-- Vector B2.14. -/
theorem test_load_im16_1 :
    (ran (st .v12 0x1FFFE 0x0 0x8 [] [(0x1FFFE, 0x9F08), (0x1FFFF, 0x1234)]) fun t =>
      [t.nextPc.toNat]) = some [0x21234] := by decide

/-- Vector B2.14. -/
theorem test_load_im16_2 :
    (ran (st .v10 0x1FFFE 0x0 0x8 [] [(0x1FFFE, 0x9F08), (0x1FFFF, 0x1234)]) fun t =>
      [t.nextPc.toNat]) = some [0x11234] := by decide

/-- Vector B2.15. -/
theorem test_load_reg_2 :
    (ran (st .v12 0x8000 0x0 0x8 [(.core .r1, 0xC05)] [(0x8000, 0x9D01)]) fun t =>
      [t.srWord.toNat, t.nextPc.toNat]) = some [0xC05, 0x58001] := by decide

/-- Vector B2.17. -/
theorem test_store_bp_im6_1 :
    (ran (st .v12 0x8000 0x0 0x8 [(.core .bp, 0x1000), (.core .r1, 0x1234)] [(0x8000, 0xD23F)]) fun t =>
      [at_ t 0x103F]) = some [0x1234] := by decide

/-- Vector B2.18. -/
theorem test_store_a16_1 :
    (ran (st .v12 0x8000 0x0 0x8 [(.core .r1, 0x1234)] [(0x8000, 0xD310), (0x8001, 0x2480)]) fun t =>
      [at_ t 0x2480, t.nextPc.toNat]) = some [0x1234, 0x8002] := by decide

/-- Vector B2.19. -/
theorem test_load_im6_1 :
    (ran (st .v12 0x8000 0x0 0x8 [] [(0x8000, 0x927F)]) fun t =>
      [(t.greg (.core .r1)).toNat, t.srWord.toNat]) = some [0x3F, 0x0] := by decide

/-- Vector B3.1. -/
theorem test_load_shift_1 :
    (ran (st .v12 0x8000 0x0 0x8 [(.core .r1, 0x8006)] [(0x8000, 0x9529)]) fun t =>
      [(t.greg (.core .r2)).toNat, t.frWord.toNat, t.srWord.toNat]) = some [0xE001, 0x408, 0x200] := by decide

/-- Vector B3.2. -/
theorem test_add_shift_1 :
    (ran (st .v12 0x8000 0x0 0x288 [(.core .r1, 0xF00F), (.core .r3, 0x10)] [(0x8000, 0x759)]) fun t =>
      [t.frWord.toNat, (t.greg (.core .r3)).toNat, t.srWord.toNat]) = some [0x788, 0x100, 0x0] := by decide

/-- Vector B4. -/
theorem test_rol16_1 :
    (ran (st .v12 0x8000 0x8040 0x8 [(.core .r1, 0x1)] [(0x8000, 0xED69)]) fun t =>
      [t.srWord.toNat]) = some [0x81] := by decide

/-- Vector B5. -/
theorem test_mul_ss_1 :
    (ran (st .v12 0x8000 0x0 0x8 [(.core .r1, 0xFFFF), (.core .r2, 0xFFFF)] [(0x8000, 0xF30A)]) fun t =>
      [(t.greg (.core .r4)).toNat, (t.greg (.core .r3)).toNat]) = some [0x0, 0x1] := by decide

/-- Vector B5. -/
theorem test_mul_uu_1 :
    (ran (st .v12 0x8000 0x0 0x8 [(.core .r1, 0xFFFF), (.core .r2, 0xFFFF)] [(0x8000, 0xE20A)]) fun t =>
      [(t.greg (.core .r4)).toNat, (t.greg (.core .r3)).toNat]) = some [0xFFFE, 0x1] := by decide

/-- Vector B5. -/
theorem test_mul_us_1 :
    (ran (st .v12 0x8000 0x0 0x8 [(.core .r1, 0xFFFF), (.core .r2, 0xFFFF)] [(0x8000, 0xF20A)]) fun t =>
      [(t.greg (.core .r4)).toNat, (t.greg (.core .r3)).toNat]) = some [0xFFFF, 0x1] := by decide

/-- Vector B5. -/
theorem test_mul_us_2 :
    (ran (st .v12 0x8000 0x0 0x8 [(.core .r1, 0x2), (.core .r2, 0xFFFF)] [(0x8000, 0xF20A)]) fun t =>
      [(t.greg (.core .r4)).toNat, (t.greg (.core .r3)).toNat]) = some [0xFFFF, 0xFFFE] := by decide

/-- Vector B5. -/
theorem test_mul_ss_2 :
    (ran (st .v12 0x8000 0x0 0x8 [(.core .r1, 0x3), (.core .r2, 0xFFFE)] [(0x8000, 0xF30A)]) fun t =>
      [(t.greg (.core .r4)).toNat, (t.greg (.core .r3)).toNat]) = some [0xFFFF, 0xFFFA] := by decide

/-- Vector B5. -/
theorem test_mul_uu_2 :
    (ran (st .v12 0x8000 0x0 0x1008 [(.core .r1, 0xFFFF), (.core .r2, 0xFFFF)] [(0x8000, 0xE20A)]) fun t =>
      [(t.greg (.core .r4)).toNat, (t.greg (.core .r3)).toNat]) = some [0xFFFC, 0x2] := by decide

/-- Vector B5. -/
theorem test_muls_ss_1 :
    (ran (st .v12 0x8000 0x0 0x808 [(.core .r1, 0x100), (.core .r2, 0x200)] [(0x100, 0x1), (0x101, 0x2), (0x102, 0x3), (0x103, 0x4), (0x200, 0x5), (0x201, 0x6), (0x202, 0x7), (0x203, 0xFFFF), (0x8000, 0xF3A2)]) fun t =>
      [(t.greg (.core .r4)).toNat, (t.greg (.core .r3)).toNat, (t.greg (.core .r1)).toNat, (t.greg (.core .r2)).toNat, t.frWord.toNat]) = some [0x0, 0x22, 0x104, 0x204, 0x808] := by decide

/-- Vector B5. -/
theorem test_muls_ss_2 :
    (ran (st .v12 0x8000 0x0 0x8 [(.core .r1, 0x100), (.core .r2, 0x200)] [(0x100, 0x1), (0x101, 0x2), (0x102, 0x3), (0x103, 0x4), (0x200, 0x5), (0x201, 0x6), (0x202, 0x7), (0x203, 0xFFFF), (0x8000, 0xF3A2)]) fun t =>
      [(t.greg (.core .r4)).toNat, (t.greg (.core .r3)).toNat, (t.greg (.core .r1)).toNat, (t.greg (.core .r2)).toNat, t.frWord.toNat]) = some [0x0, 0x22, 0x104, 0x204, 0x8] := by decide

/-- Vector B5. -/
theorem test_muls_uu_1 :
    (ran (st .v12 0x8000 0x0 0x808 [(.core .r1, 0x100), (.core .r2, 0x200)] [(0x100, 0xFFFF), (0x101, 0xFFFF), (0x200, 0xFFFF), (0x201, 0xFFFF), (0x8000, 0xE292)]) fun t =>
      [(t.greg (.core .r4)).toNat, (t.greg (.core .r3)).toNat, (t.greg (.core .r1)).toNat, (t.greg (.core .r2)).toNat, t.frWord.toNat]) = some [0xFFFC, 0x2, 0x102, 0x202, 0x888] := by decide

/-- Vector B5. -/
theorem test_muls_us_1 :
    (ran (st .v12 0x8000 0x0 0x808 [(.core .r1, 0x100), (.core .r2, 0x200)] [(0x100, 0xFFFF), (0x101, 0x1), (0x200, 0xFFFF), (0x201, 0xFFFF), (0x8000, 0xF292)]) fun t =>
      [(t.greg (.core .r4)).toNat, (t.greg (.core .r3)).toNat, (t.greg (.core .r1)).toNat, (t.greg (.core .r2)).toNat, t.frWord.toNat]) = some [0xFFFF, 0x0, 0x102, 0x202, 0xF88] := by decide

/-- Vector B6. -/
theorem test_divq_1 :
    (ran (st .v12 0x8000 0x0 0x8 [(.core .r4, 0x6), (.core .r3, 0x2E26), (.core .r2, 0x625)] [(0x8000, 0xF163)]) fun t =>
      [(t.greg (.core .r4)).toNat, (t.greg (.core .r3)).toNat, (t.greg (.core .r2)).toNat, t.frWord.toNat]) = some [0xF3C2, 0x5C4C, 0x625, 0x4008] := by decide

/-- Vector B6. -/
theorem test_divq_2 :
    (ran (st .v12 0x8000 0x0 0x4008 [(.core .r4, 0xF3C2), (.core .r3, 0x5C4C), (.core .r2, 0x625)] [(0x8000, 0xF163)]) fun t =>
      [(t.greg (.core .r4)).toNat, (t.greg (.core .r3)).toNat, (t.greg (.core .r2)).toNat, t.frWord.toNat]) = some [0xF3CE, 0xB898, 0x625, 0x4008] := by decide

/-- Vector B6. -/
theorem test_divs_1 :
    (ran (st .v12 0x8000 0x0 0x8 [(.core .r4, 0xFFFE), (.core .r3, 0x2E26), (.core .r2, 0x625)] [(0x8000, 0xF162)]) fun t =>
      [(t.greg (.core .r4)).toNat, (t.greg (.core .r3)).toNat, (t.greg (.core .r2)).toNat, t.frWord.toNat]) = some [0xFFFC, 0x5C4D, 0x625, 0x4008] := by decide

/-- Vector B6. -/
theorem test_divs_2 :
    (ran (st .v12 0x8000 0x0 0x4008 [(.core .r4, 0xFFFE), (.core .r3, 0x2E26), (.core .r2, 0x625)] [(0x8000, 0xF162)]) fun t =>
      [(t.greg (.core .r4)).toNat, (t.greg (.core .r3)).toNat, (t.greg (.core .r2)).toNat, t.frWord.toNat]) = some [0xFFFC, 0x5C4D, 0x625, 0x4008] := by decide

/-- Vector B6b.1. -/
theorem test_ds_im6_1 :
    (ran (st .v12 0x8000 0x3C0 0x8 [] [(0x8000, 0xFE12)]) fun t =>
      [t.srWord.toNat]) = some [0x4BC0] := by decide

/-- Vector B6b.2. -/
theorem test_rs_eq_ds_1 :
    (ran (st .v12 0x8000 0xFFC0 0x8 [] [(0x8000, 0xF022)]) fun t =>
      [(t.greg (.core .r2)).toNat]) = some [0x3F] := by decide

/-- Vector B6b.3. -/
theorem test_ds_eq_rs_1 :
    (ran (st .v12 0x8000 0x3C0 0x8 [(.core .r1, 0xFFC7)] [(0x8000, 0xF029)]) fun t =>
      [t.srWord.toNat]) = some [0x1FC0] := by decide

/-- Vector B6b.4. -/
theorem test_rs_eq_fr_1 :
    (ran (st .v12 0x8000 0x0 0x5ABC [] [(0x8000, 0xF032)]) fun t =>
      [(t.greg (.core .r2)).toNat]) = some [0x5ABC] := by decide

/-- Vector B6b.5. -/
theorem test_fr_eq_rs_1 :
    (ran (st .v12 0x8000 0x0 0x8 [(.core .r1, 0xFFFF)] [(0x8000, 0xF039)]) fun t =>
      [t.frWord.toNat]) = some [0xFFFF] := by decide

/-- Vector B6b.6. -/
theorem test_rs_eq_ds_2 :
    (ran (st .v12 0x8000 0xBC0 0x8 [] [(0x8000, 0xF026)]) fun t =>
      [t.srWord.toNat, t.nextPc.toNat]) = some [0x2, 0x28001] := by decide

/-- Vector B6. -/
theorem test_exp_1 :
    (ran (st .v12 0x8000 0x0 0x8 [(.core .r4, 0xF770)] [(0x8000, 0xF164)]) fun t =>
      [(t.greg (.core .r2)).toNat, (t.greg (.core .r4)).toNat, t.srWord.toNat]) = some [0x3, 0xF770, 0x0] := by decide

/-- Vector B6. -/
theorem test_exp_2 :
    (ran (st .v12 0x8000 0x0 0x8 [(.core .r4, 0x4F)] [(0x8000, 0xF164)]) fun t =>
      [(t.greg (.core .r2)).toNat, (t.greg (.core .r4)).toNat, t.srWord.toNat]) = some [0x8, 0x4F, 0x0] := by decide

/-- Vector B7.1. -/
theorem test_tstb_reg_off_1 :
    (ran (st .v12 0x8000 0x3C0 0x8 [(.core .r1, 0x8000)] [(0x8000, 0xE24F)]) fun t =>
      [t.srWord.toNat, (t.greg (.core .r1)).toNat]) = some [0x2C0, 0x8000] := by decide

/-- Vector B7.2. -/
theorem test_setb_reg_reg_1 :
    (ran (st .v12 0x8000 0x0 0x8 [(.core .r2, 0x12F3)] [(0x8000, 0xE612)]) fun t =>
      [(t.greg (.core .r3)).toNat, t.srWord.toNat]) = some [0x8, 0x100] := by decide

/-- Vector B7.3. -/
theorem test_clrb_reg_off_1 :
    (ran (st .v12 0x8000 0x0 0x8 [(.core .r3, 0xFFFF)] [(0x8000, 0xE66A)]) fun t =>
      [(t.greg (.core .r3)).toNat, t.srWord.toNat]) = some [0xFBFF, 0x0] := by decide

/-- Vector B7.4. -/
theorem test_invb_reg_reg_1 :
    (ran (st .v12 0x8000 0x100 0x8 [(.core .r4, 0x1)] [(0x8000, 0xE832)]) fun t =>
      [(t.greg (.core .r4)).toNat, t.srWord.toNat]) = some [0x0, 0x0] := by decide

/-- Vector B7.5. -/
theorem test_setb_mem_reg_1 :
    (ran (st .v12 0x8000 0xC00 0x8 [(.core .r1, 0x100), (.core .r3, 0x4)] [(0x100, 0x10), (0x8000, 0xE313)]) fun t =>
      [at_ t 0x100, t.srWord.toNat]) = some [0x10, 0xC00] := by decide

/-- Vector B7.6. -/
theorem test_setb_mem_off_1 :
    (ran (st .v12 0x8000 0xC00 0x8 [(.core .r1, 0x1234)] [(0x8000, 0xE3DD)]) fun t =>
      [at_ t 0x31234, t.srWord.toNat]) = some [0x2000, 0xD00] := by decide

/-- Vector B7.7. -/
theorem test_tstb_mem_off_1 :
    (ran (st .v12 0x8000 0xC00 0x8 [(.core .r1, 0x1234)] [(0x31234, 0x1), (0x8000, 0xE3C0)]) fun t =>
      [at_ t 0x31234, t.srWord.toNat]) = some [0x1, 0xC00] := by decide

/-- Vector B7.8. -/
theorem test_clrb_reg_off_2 :
    (ran (st .v12 0x8000 0x40 0x8 [] [(0x8000, 0xEC66)]) fun t =>
      [t.srWord.toNat]) = some [0x0] := by decide

/-- Vector B7.9. -/
theorem test_setb_reg_off_1 :
    (ran (st .v12 0x8000 0x0 0x8 [] [(0x8000, 0xEC58)]) fun t =>
      [t.srWord.toNat]) = some [0x100] := by decide

/-- Vector B7.10. -/
theorem test_tstb_reg_off_2 :
    (ran (st .v12 0x8000 0x100 0x8 [] [(0x8000, 0xEC48)]) fun t =>
      [t.srWord.toNat]) = some [0x0] := by decide

/-- Vector B7.11. -/
theorem test_setb_a16_1 :
    (ran (st .v20 0x8000 0xC00 0x8 [] [(0x8000, 0xF65D), (0x8001, 0x1234)]) fun t =>
      [at_ t 0x31234, t.srWord.toNat, t.nextPc.toNat]) = some [0x2000, 0xD00, 0x8002] := by decide

/-- Vector B7.12. -/
theorem test_setb_a16_2 :
    (ran (st .v20 0x8000 0x100 0x8 [] [(0x5678, 0x20), (0x8000, 0xF255), (0x8001, 0x5678)]) fun t =>
      [at_ t 0x5678, t.srWord.toNat]) = some [0x20, 0x0] := by decide

/-- Vector B8.1. -/
theorem test_push_1 :
    (ran (st .v12 0x8000 0x0 0x8 [(.core .sp, 0x7FF), (.core .r1, 0x1111), (.core .r2, 0x2222), (.core .r3, 0x3333), (.core .r4, 0x4444)] [(0x8000, 0xD8A0)]) fun t =>
      [at_ t 0x7FF, at_ t 0x7FE, at_ t 0x7FD, at_ t 0x7FC, (t.greg (.core .sp)).toNat]) = some [0x4444, 0x3333, 0x2222, 0x1111, 0x7FB] := by decide

/-- Vector B8.2. -/
theorem test_pop_1 :
    (ran (st .v12 0x8000 0xC0 0x8 [(.core .sp, 0x7FB)] [(0x7FC, 0x1111), (0x7FD, 0x2222), (0x7FE, 0x3333), (0x8000, 0x90A0)]) fun t =>
      [(t.greg (.core .r1)).toNat, (t.greg (.core .r2)).toNat, (t.greg (.core .r3)).toNat, (t.greg (.core .r4)).toNat, (t.greg (.core .sp)).toNat]) = some [0x1111, 0x2222, 0x3333, 0x0, 0x7FF] := by decide

/-- Vector B8.2. -/
theorem test_pop_2 :
    (ran (st .v10 0x8000 0xC0 0x8 [(.core .sp, 0x7FB)] [(0x7FC, 0x1111), (0x7FD, 0x2222), (0x7FE, 0x3333), (0x8000, 0x90A0)]) fun t =>
      [(t.greg (.core .r1)).toNat, (t.greg (.core .r2)).toNat, (t.greg (.core .r3)).toNat, (t.greg (.core .r4)).toNat, (t.greg (.core .sp)).toNat]) = some [0x1111, 0x2222, 0x3333, 0x0, 0x7FF] := by decide

/-- Vector B8.3. -/
theorem test_push_2 :
    (ran (st .v12 0x18000 0x340 0x8 [(.core .sp, 0x2), (.core .r3, 0x3333), (.core .r4, 0x4444), (.core .bp, 0x5555)] [(0x18000, 0xDEA8)]) fun t =>
      [at_ t 0x2, at_ t 0x1, at_ t 0x0, at_ t 0xFFFF, at_ t 0xFFFE]) = some [0x8001, 0x341, 0x5555, 0x4444, 0x3333] := by decide

/-- Vector B9.1. -/
theorem test_load_ind_1 :
    (ran (st .v12 0x8000 0x400 0x8 [(.core .r2, 0xFFFF)] [(0xFFFF, 0x8001), (0x1FFFF, 0x7777), (0x8000, 0x92D2)]) fun t =>
      [(t.greg (.core .r1)).toNat, (t.greg (.core .r2)).toNat, t.srWord.toNat]) = some [0x8001, 0x0, 0x600] := by decide

/-- Vector B9.2. -/
theorem test_load_ind_2 :
    (ran (st .v12 0x8000 0x400 0x8 [(.core .r2, 0xFFFF)] [(0xFFFF, 0x8001), (0x1FFFF, 0x7777), (0x8000, 0x92F2)]) fun t =>
      [(t.greg (.core .r1)).toNat, (t.greg (.core .r2)).toNat, t.srWord.toNat]) = some [0x7777, 0x0, 0x800] := by decide

/-- Vector B9.6. -/
theorem test_store_ind_1 :
    (ran (st .v12 0x8000 0x800 0x8 [(.core .r1, 0xBEEF)] [(0x8000, 0xD2CA)]) fun t =>
      [at_ t 0x0, (t.greg (.core .r2)).toNat, t.srWord.toNat]) = some [0xBEEF, 0xFFFF, 0x800] := by decide

/-- Vector B10.1. -/
theorem test_jmp_1 :
    (ran (st .v11 0xFFF0 0x0 0x8 [] [(0xFFF0, 0xEE3F)]) fun t =>
      [t.nextPc.toNat]) = some [0x10030] := by decide

/-- Vector B10.1. -/
theorem test_jmp_2 :
    (ran (st .v10 0xFFF0 0x0 0x8 [] [(0xFFF0, 0xEE3F)]) fun t =>
      [t.nextPc.toNat]) = some [0x30] := by decide

/-- Vector B10.6. -/
theorem test_jz_1 :
    (ran (st .v12 0x8000 0x0 0x8 [] [(0x8000, 0x5E05)]) fun t =>
      [t.nextPc.toNat]) = some [0x8001] := by decide

/-- Vector B10.7. -/
theorem test_jz_2 :
    (ran (st .v12 0x8000 0x100 0x8 [] [(0x8000, 0x5E05)]) fun t =>
      [t.nextPc.toNat]) = some [0x8006] := by decide

/-- Vector B10.8. -/
theorem test_call_1 :
    (ran (st .v11 0x2FFFE 0xFC0 0x8 [] [(0x2FFFE, 0xF041), (0x2FFFF, 0x2345)]) fun t =>
      [at_ t 0x0, at_ t 0xFFFF, (t.greg (.core .sp)).toNat, t.srWord.toNat, t.nextPc.toNat]) = some [0x0, 0xFC3, 0xFFFE, 0xFC1, 0x12345] := by decide

/-- Vector B10.8. -/
theorem test_call_2 :
    (ran (st .v10 0x2FFFE 0xFC0 0x8 [] [(0x2FFFE, 0xF041), (0x2FFFF, 0x2345)]) fun t =>
      [at_ t 0x0, at_ t 0xFFFF, (t.greg (.core .sp)).toNat, t.srWord.toNat, t.nextPc.toNat]) = some [0x0, 0xFC2, 0xFFFE, 0xFC1, 0x12345] := by decide

/-- Vector B10.9. -/
theorem test_call_mr_1 :
    (ran (st .v12 0x8000 0x40 0x8 [(.core .sp, 0x7FF), (.core .r3, 0x5678), (.core .r4, 0xFFC3)] [(0x8000, 0xF161)]) fun t =>
      [at_ t 0x7FF, at_ t 0x7FE, (t.greg (.core .sp)).toNat, t.nextPc.toNat, t.srWord.toNat]) = some [0x8001, 0x40, 0x7FD, 0x35678, 0x43] := by decide

/-- Vector B10.10. -/
theorem test_goto_mr_1 :
    (ran (st .v12 0x8000 0x40 0x8 [(.core .r3, 0x5678), (.core .r4, 0xFFC3)] [(0x8000, 0xFEC0)]) fun t =>
      [t.nextPc.toNat, t.srWord.toNat, (t.greg (.core .sp)).toNat]) = some [0x35678, 0x43, 0x0] := by decide

/-- Vector B10.11. -/
theorem test_goto_1 :
    (ran (st .v12 0x8010 0x0 0x8 [] [(0x8010, 0xFE83), (0x8011, 0x5678)]) fun t =>
      [t.nextPc.toNat]) = some [0x35678] := by decide

/-- Vector B10.12. -/
theorem test_retf_1 :
    (ran (st .v12 0x12005 0x280 0x8 [(.core .sp, 0x7FD)] [(0x7FE, 0xC40), (0x7FF, 0x8006), (0x12005, 0x9A90)]) fun t =>
      [t.srWord.toNat, (t.greg (.core .sp)).toNat, t.nextPc.toNat]) = some [0xC40, 0x7FF, 0x8006] := by decide

/-- Vector B10.13. -/
theorem test_brk_1 :
    (ran (st .v12 0x18000 0x340 0x68 [(.core .sp, 0x7FF)] [(0xFFF5, 0x4000), (0x18000, 0xF160)]) fun t =>
      [at_ t 0x7FF, at_ t 0x7FE, (t.greg (.core .sp)).toNat, t.nextPc.toNat, t.srWord.toNat]) = some [0x8001, 0x341, 0x7FD, 0x4000, 0x340] := by decide

/-- Vector B10. -/
theorem test_jcc_1 :
    (ran (st .v12 0x8000 0x280 0x8 [] [(0x8000, 0xE05)]) fun t =>
      [t.nextPc.toNat]) = some [0x8006] := by decide

/-- Vector B10. -/
theorem test_jcs_1 :
    (ran (st .v12 0x8000 0x280 0x8 [] [(0x8000, 0x1E05)]) fun t =>
      [t.nextPc.toNat]) = some [0x8001] := by decide

/-- Vector B10. -/
theorem test_jsc_1 :
    (ran (st .v12 0x8000 0x280 0x8 [] [(0x8000, 0x2E05)]) fun t =>
      [t.nextPc.toNat]) = some [0x8001] := by decide

/-- Vector B10. -/
theorem test_jss_1 :
    (ran (st .v12 0x8000 0x280 0x8 [] [(0x8000, 0x3E05)]) fun t =>
      [t.nextPc.toNat]) = some [0x8006] := by decide

/-- Vector B10. -/
theorem test_jne_1 :
    (ran (st .v12 0x8000 0x280 0x8 [] [(0x8000, 0x4E05)]) fun t =>
      [t.nextPc.toNat]) = some [0x8006] := by decide

/-- Vector B10. -/
theorem test_jpl_1 :
    (ran (st .v12 0x8000 0x280 0x8 [] [(0x8000, 0x6E05)]) fun t =>
      [t.nextPc.toNat]) = some [0x8001] := by decide

/-- Vector B10. -/
theorem test_jmi_1 :
    (ran (st .v12 0x8000 0x280 0x8 [] [(0x8000, 0x7E05)]) fun t =>
      [t.nextPc.toNat]) = some [0x8006] := by decide

/-- Vector B10. -/
theorem test_jbe_1 :
    (ran (st .v12 0x8000 0x280 0x8 [] [(0x8000, 0x8E05)]) fun t =>
      [t.nextPc.toNat]) = some [0x8006] := by decide

/-- Vector B10. -/
theorem test_jnbe_1 :
    (ran (st .v12 0x8000 0x280 0x8 [] [(0x8000, 0x9E05)]) fun t =>
      [t.nextPc.toNat]) = some [0x8001] := by decide

/-- Vector B10. -/
theorem test_jle_1 :
    (ran (st .v12 0x8000 0x280 0x8 [] [(0x8000, 0xAE05)]) fun t =>
      [t.nextPc.toNat]) = some [0x8006] := by decide

/-- Vector B10. -/
theorem test_jnle_1 :
    (ran (st .v12 0x8000 0x280 0x8 [] [(0x8000, 0xBE05)]) fun t =>
      [t.nextPc.toNat]) = some [0x8001] := by decide

/-- Vector B10. -/
theorem test_jvc_1 :
    (ran (st .v12 0x8000 0x280 0x8 [] [(0x8000, 0xCE05)]) fun t =>
      [t.nextPc.toNat]) = some [0x8006] := by decide

/-- Vector B10. -/
theorem test_jvs_1 :
    (ran (st .v12 0x8000 0x280 0x8 [] [(0x8000, 0xDE05)]) fun t =>
      [t.nextPc.toNat]) = some [0x8001] := by decide

/-- Vector B11. -/
theorem test_int_1 :
    (ran (st .v12 0x8000 0x0 0x68 [] [(0x8000, 0xF140)]) fun t =>
      [t.frWord.toNat, t.nextPc.toNat, t.srWord.toNat]) = some [0x8, 0x8001, 0x0] := by decide

/-- Vector B11. -/
theorem test_int_2 :
    (ran (st .v12 0x8000 0x0 0x8 [] [(0x8000, 0xF141)]) fun t =>
      [t.frWord.toNat, t.nextPc.toNat, t.srWord.toNat]) = some [0x28, 0x8001, 0x0] := by decide

/-- Vector B11. -/
theorem test_fir_mov_1 :
    (ran (st .v12 0x8000 0x0 0x808 [] [(0x8000, 0xF144)]) fun t =>
      [t.frWord.toNat, t.nextPc.toNat, t.srWord.toNat]) = some [0x8, 0x8001, 0x0] := by decide

/-- Vector B11. -/
theorem test_fir_mov_2 :
    (ran (st .v12 0x8000 0x0 0x8 [] [(0x8000, 0xF145)]) fun t =>
      [t.frWord.toNat, t.nextPc.toNat, t.srWord.toNat]) = some [0x808, 0x8001, 0x0] := by decide

/-- Vector B11. -/
theorem test_fraction_1 :
    (ran (st .v12 0x8000 0x0 0x1008 [] [(0x8000, 0xF146)]) fun t =>
      [t.frWord.toNat, t.nextPc.toNat, t.srWord.toNat]) = some [0x8, 0x8001, 0x0] := by decide

/-- Vector B11. -/
theorem test_fraction_2 :
    (ran (st .v12 0x8000 0x0 0x8 [] [(0x8000, 0xF147)]) fun t =>
      [t.frWord.toNat, t.nextPc.toNat, t.srWord.toNat]) = some [0x1008, 0x8001, 0x0] := by decide

/-- Vector B11. -/
theorem test_irq_1 :
    (ran (st .v12 0x8000 0x0 0x68 [] [(0x8000, 0xF148)]) fun t =>
      [t.frWord.toNat, t.nextPc.toNat, t.srWord.toNat]) = some [0x48, 0x8001, 0x0] := by decide

/-- Vector B11. -/
theorem test_irq_2 :
    (ran (st .v12 0x8000 0x0 0x48 [] [(0x8000, 0xF149)]) fun t =>
      [t.frWord.toNat, t.nextPc.toNat, t.srWord.toNat]) = some [0x68, 0x8001, 0x0] := by decide

/-- Vector B11. -/
theorem test_secbank_1 :
    (ran (st .v12 0x8000 0x0 0x2008 [] [(0x8000, 0xF14A)]) fun t =>
      [t.frWord.toNat, t.nextPc.toNat, t.srWord.toNat]) = some [0x8, 0x8001, 0x0] := by decide

/-- Vector B11. -/
theorem test_secbank_2 :
    (ran (st .v12 0x8000 0x0 0x8 [] [(0x8000, 0xF14B)]) fun t =>
      [t.frWord.toNat, t.nextPc.toNat, t.srWord.toNat]) = some [0x2008, 0x8001, 0x0] := by decide

/-- Vector B11. -/
theorem test_fiq_1 :
    (ran (st .v12 0x8000 0x0 0x68 [] [(0x8000, 0xF14C)]) fun t =>
      [t.frWord.toNat, t.nextPc.toNat, t.srWord.toNat]) = some [0x28, 0x8001, 0x0] := by decide

/-- Vector B11. -/
theorem test_irqnest_1 :
    (ran (st .v12 0x8000 0x0 0x18 [] [(0x8000, 0xF14D)]) fun t =>
      [t.frWord.toNat, t.nextPc.toNat, t.srWord.toNat]) = some [0x8, 0x8001, 0x0] := by decide

/-- Vector B11. -/
theorem test_fiq_2 :
    (ran (st .v12 0x8000 0x0 0x28 [] [(0x8000, 0xF14E)]) fun t =>
      [t.frWord.toNat, t.nextPc.toNat, t.srWord.toNat]) = some [0x68, 0x8001, 0x0] := by decide

/-- Vector B11. -/
theorem test_irqnest_2 :
    (ran (st .v12 0x8000 0x0 0x8 [] [(0x8000, 0xF14F)]) fun t =>
      [t.frWord.toNat, t.nextPc.toNat, t.srWord.toNat]) = some [0x18, 0x8001, 0x0] := by decide

/-- Vector B11. -/
theorem test_nop_1 :
    (ran (st .v12 0x8000 0x0 0x8 [] [(0x8000, 0xF165)]) fun t =>
      [t.frWord.toNat, t.nextPc.toNat, t.srWord.toNat]) = some [0x8, 0x8001, 0x0] := by decide

/-- Vector B13.1. -/
theorem test_ext_load_im16_1 :
    (ran (st .v20 0x8000 0x0 0x8 [] [(0x8000, 0xFFC0), (0x8001, 0x9140), (0x8002, 0x1234)]) fun t =>
      [(t.greg (.ext .r8)).toNat, t.srWord.toNat, t.nextPc.toNat]) = some [0x1234, 0x0, 0x8003] := by decide

/-- Vector B13.2. -/
theorem test_ext_add_reg_1 :
    (ran (st .v20 0x8000 0x0 0x8 [(.ext .r9, 0xF000), (.ext .r8, 0x1234)] [(0x8000, 0xFFC0), (0x8001, 0x308)]) fun t =>
      [(t.greg (.ext .r9)).toNat, t.srWord.toNat, t.nextPc.toNat]) = some [0x234, 0x40, 0x8002] := by decide

/-- Vector B13.3. -/
theorem test_ext_load_reg_1 :
    (ran (st .v20 0x8000 0x0 0x8 [(.ext .r9, 0x8000)] [(0x8000, 0xFFC0), (0x8001, 0x9209)]) fun t =>
      [(t.greg (.core .r1)).toNat, t.srWord.toNat]) = some [0x8000, 0x200] := by decide

/-- Vector B13.4. -/
theorem test_ext_add_im6_1 :
    (ran (st .v20 0x8000 0x0 0x8 [(.ext .r10, 0xFFD8)] [(0x8000, 0xFFC0), (0x8001, 0x5A8)]) fun t =>
      [(t.greg (.ext .r10)).toNat, t.srWord.toNat]) = some [0x0, 0x140] := by decide

/-- Vector B13.5. -/
theorem test_ext_load_ind_1 :
    (ran (st .v20 0x8000 0x400 0x8 [(.ext .r12, 0xFFFF)] [(0x1FFFF, 0xAA), (0x8000, 0xFFC0), (0x8001, 0x96B4)]) fun t =>
      [(t.greg (.ext .r11)).toNat, (t.greg (.ext .r12)).toNat, t.srWord.toNat]) = some [0xAA, 0x0, 0x800] := by decide

/-- Vector B13.6. -/
theorem test_ext_store_a16_1 :
    (ran (st .v20 0x8000 0x0 0x8 [(.ext .r12, 0x5555)] [(0x8000, 0xFFC0), (0x8001, 0xD960), (0x8002, 0x2480)]) fun t =>
      [at_ t 0x2480, t.nextPc.toNat]) = some [0x5555, 0x8003] := by decide

/-- Vector B13.7. -/
theorem test_ext_add_bp_im6_1 :
    (ran (st .v20 0x8000 0x0 0x8 [(.ext .r13, 0x1), (.core .bp, 0x100)] [(0x108, 0x2), (0x8000, 0xFFC0), (0x8001, 0xAC8)]) fun t =>
      [(t.greg (.ext .r13)).toNat]) = some [0x3] := by decide

/-- Vector B13.8. -/
theorem test_ext_load_a6_1 :
    (ran (st .v20 0x8000 0x0 0x8 [] [(0x30, 0x8000), (0x8000, 0xFFC0), (0x8001, 0x9DF0)]) fun t =>
      [(t.greg (.ext .r14)).toNat, t.srWord.toNat]) = some [0x8000, 0x200] := by decide

/-- Vector B13.9. -/
theorem test_ext_push_1 :
    (ran (st .v20 0x8000 0x0 0x8 [(.ext .r8, 0x808), (.ext .r9, 0x909), (.ext .r10, 0xA0A), (.ext .r11, 0xB0B), (.ext .r12, 0xC0C), (.core .sp, 0x7FF)] [(0x8000, 0xFFC0), (0x8001, 0xD820)]) fun t =>
      [at_ t 0x7FF, at_ t 0x7FE, at_ t 0x7FD, at_ t 0x7FC, at_ t 0x7FB]) = some [0xC0C, 0xB0B, 0xA0A, 0x909, 0x808] := by decide

/-- Vector B13.10. -/
theorem test_ext_pop_1 :
    (ran (st .v20 0x8000 0x0 0x8 [(.core .sp, 0x7FA)] [(0x7FF, 0xC0C), (0x7FE, 0xB0B), (0x7FD, 0xA0A), (0x7FC, 0x909), (0x7FB, 0x808), (0x8000, 0xFFC0), (0x8001, 0x5E20)]) fun t =>
      [(t.greg (.ext .r8)).toNat, (t.greg (.ext .r9)).toNat, (t.greg (.ext .r10)).toNat, (t.greg (.ext .r11)).toNat, (t.greg (.ext .r12)).toNat]) = some [0x808, 0x909, 0xA0A, 0xB0B, 0xC0C] := by decide

/-- Vector B13.11. -/
theorem test_ext_pop_2 :
    (ran (st .v20 0x8000 0x0 0x8 [(.core .sp, 0x7FB)] [(0x7FC, 0x1), (0x7FD, 0x2), (0x7FE, 0x3), (0x7FF, 0x4), (0x8000, 0xFFC0), (0x8001, 0x4620)]) fun t =>
      [(t.greg (.ext .r12)).toNat, (t.greg (.ext .r13)).toNat, (t.greg (.ext .r14)).toNat, (t.greg (.ext .r15)).toNat, (t.greg (.core .sp)).toNat]) = some [0x1, 0x2, 0x3, 0x4, 0x7FF] := by decide

/-- Source: B13.13 -/
theorem test_ext_load_ind_2 :
    (ran (st .v20 0x8000 0x0 0x8 [] [(0x8000, 0xFFC0), (0x8001, 0x9693)]) fun _ => []) = none := by decide

/-- Vector B13.14. -/
theorem test_ext_load_reg_2 :
    (ran (st .v20 0x8000 0x0 0x8 [(.core .sp, 0x7)] [(0x8000, 0xFFC0), (0x8001, 0x9100)]) fun t =>
      [(t.greg (.ext .r8)).toNat]) = some [0x7] := by decide

/-- Vector B1. -/
theorem test_adc_reg_1 :
    (ran (st .v12 0x8000 0x40 0x8 [(.core .r1, 0xFFFF), (.core .r2, 0x0)] [(0x8000, 0x1302)]) fun t =>
      [(t.greg (.core .r1)).toNat, t.srWord.toNat, t.nextPc.toNat]) = some [0x0, 0x140, 0x8001] := by decide

/-- Vector B1. -/
theorem test_sub_reg_1 :
    (ran (st .v12 0x8000 0x0 0x8 [(.core .r1, 0x5), (.core .r2, 0x5)] [(0x8000, 0x2302)]) fun t =>
      [(t.greg (.core .r1)).toNat, t.srWord.toNat, t.nextPc.toNat]) = some [0x0, 0x140, 0x8001] := by decide

/-- Vector B1. -/
theorem test_xor_reg_1 :
    (ran (st .v12 0x8000 0x0 0x8 [(.core .r1, 0xAAAA), (.core .r2, 0x5555)] [(0x8000, 0x8302)]) fun t =>
      [(t.greg (.core .r1)).toNat, t.srWord.toNat]) = some [0xFFFF, 0x200] := by decide

/-- Vector B1. -/
theorem test_or_reg_1 :
    (ran (st .v12 0x8000 0x0 0x8 [(.core .r1, 0xF0), (.core .r2, 0x8000)] [(0x8000, 0xA302)]) fun t =>
      [(t.greg (.core .r1)).toNat, t.srWord.toNat]) = some [0x80F0, 0x200] := by decide

/-- Vector B1. -/
theorem test_and_reg_1 :
    (ran (st .v12 0x8000 0x0 0x8 [(.core .r1, 0xFF00), (.core .r2, 0xFF0)] [(0x8000, 0xB302)]) fun t =>
      [(t.greg (.core .r1)).toNat, t.srWord.toNat]) = some [0xF00, 0x0] := by decide

/-- Vector B1. -/
theorem test_test_reg_1 :
    (ran (st .v12 0x8000 0x0 0x8 [(.core .r1, 0x8001), (.core .r2, 0x8000)] [(0x8000, 0xC302)]) fun t =>
      [(t.greg (.core .r1)).toNat, t.srWord.toNat]) = some [0x8001, 0x200] := by decide

/-- Vector B3. -/
theorem test_load_shift_2 :
    (ran (st .v12 0x8000 0x0 0x8 [(.core .r1, 0x8005)] [(0x8000, 0x9521)]) fun t =>
      [(t.greg (.core .r2)).toNat, t.frWord.toNat]) = some [0xC002, 0x408] := by decide

/-- Vector B4. -/
theorem test_asr16_1 :
    (ran (st .v12 0x8000 0x40 0x8 [(.core .r2, 0x8000), (.core .r1, 0x0)] [(0x8000, 0xE509)]) fun t =>
      [(t.greg (.core .r2)).toNat, t.srWord.toNat]) = some [0x8000, 0x40] := by decide

/-- Vector B4. -/
theorem test_asr16_2 :
    (ran (st .v12 0x8000 0x40 0x8 [(.core .r2, 0x8000), (.core .r1, 0x1)] [(0x8000, 0xE509)]) fun t =>
      [(t.greg (.core .r2)).toNat, t.srWord.toNat]) = some [0xC000, 0x40] := by decide

/-- Vector B4. -/
theorem test_lsl16_1 :
    (ran (st .v12 0x8000 0x40 0x8 [(.core .r2, 0x1), (.core .r1, 0xF)] [(0x8000, 0xE529)]) fun t =>
      [(t.greg (.core .r2)).toNat, t.srWord.toNat]) = some [0x8000, 0x40] := by decide

/-- Vector B4. -/
theorem test_lsl16_2 :
    (ran (st .v12 0x8000 0x40 0x8 [(.core .r2, 0x1), (.core .r1, 0x10)] [(0x8000, 0xE529)]) fun t =>
      [(t.greg (.core .r2)).toNat, t.srWord.toNat]) = some [0x0, 0x40] := by decide

/-- Vector B4. -/
theorem test_lsr16_1 :
    (ran (st .v12 0x8000 0x40 0x8 [(.core .r2, 0x8000), (.core .r1, 0xF)] [(0x8000, 0xE549)]) fun t =>
      [(t.greg (.core .r2)).toNat, t.srWord.toNat]) = some [0x1, 0x40] := by decide

/-- Vector B4. -/
theorem test_lsr16_2 :
    (ran (st .v12 0x8000 0x40 0x8 [(.core .r2, 0x8000), (.core .r1, 0x10)] [(0x8000, 0xE549)]) fun t =>
      [(t.greg (.core .r2)).toNat, t.srWord.toNat]) = some [0x0, 0x40] := by decide

/-- Vector B4. -/
theorem test_rol16_2 :
    (ran (st .v12 0x8000 0x0 0x8 [(.core .r2, 0x8001), (.core .r1, 0x1)] [(0x8000, 0xE569)]) fun t =>
      [(t.greg (.core .r2)).toNat, t.srWord.toNat]) = some [0x2, 0x40] := by decide

/-- Vector B4. -/
theorem test_ror16_1 :
    (ran (st .v12 0x8000 0x0 0x8 [(.core .r2, 0x8001), (.core .r1, 0x1)] [(0x8000, 0xE579)]) fun t =>
      [(t.greg (.core .r2)).toNat, t.srWord.toNat]) = some [0x4000, 0x40] := by decide

/-- Vector B4. -/
theorem test_ror16_2 :
    (ran (st .v12 0x8000 0x40 0x8 [(.core .r2, 0x8001), (.core .r1, 0x1)] [(0x8000, 0xE579)]) fun t =>
      [(t.greg (.core .r2)).toNat, t.srWord.toNat]) = some [0xC000, 0x40] := by decide

/-- Source: refuse -/
theorem test_asr_or16_1 :
    (ran (st .v12 0x8000 0x0 0x8 [] [(0x8000, 0xE519)]) fun _ => []) = none := by decide

/-- Source: refuse -/
theorem test_lsl_or16_1 :
    (ran (st .v12 0x8000 0x0 0x8 [] [(0x8000, 0xE939)]) fun _ => []) = none := by decide

/-- A state with a stack pointer and a carry. -/
def ws0 : State := st .v12 0 0x40 8 [(.core .sp, 0x7FF)] []

/-! ### Instructions of [1.3] alone (B14, and R274, R275, R315 to R318, R297) -/

/-- What an instruction of [1.3] leaves, as numbers. -/
def ran13 (i : Instr13) (s : State) (f : State → List Nat) : Option (List Nat) :=
  match exec13 i s with
  | .next t => some (f t)
  | .fault _ => none
  | .refused _ => none

/-- A state of [1.3] with registers and memory words given. -/
def st13 (rs : List (GReg × Nat)) (mem : List (Nat × Nat)) : State := st .v13 0x8000 0 8 rs mem

/-- Vector B14 row 1. -/
theorem test_load_b_high_byte :
    (ran13 (.loadInd .byte .r1 .keep .p2) (st13 [(.core .r2, 0x2001)] [(0x1000, 0xABCD)]) fun t =>
      [(t.reg .r1).toNat, t.srWord.toNat]) = some [0x00AB, 0] := by decide

/-- Vector B14 row 2. -/
theorem test_load_b_post_inc :
    (ran13 (.loadInd .byte .r1 .postInc .p2) (st13 [(.core .r2, 0xFFFF)] [(0x7FFF, 0x00CD)]) fun t =>
      [(t.reg .r1).toNat, (t.reg .r2).toNat, (t.reg .r3).toNat, t.srWord.toNat]) = some [0, 0, 1, 0x100] := by decide

/-- Vector B14 row 3. -/
theorem test_store_b_low_byte :
    (ran13 (.storeInd .byte .keep .p2 .r1) (st13 [(.core .r2, 0x2000), (.core .r1, 0x12EF)] [(0x1000, 0xABCD)]) fun t =>
      [at_ t 0x1000]) = some [0xABEF] := by decide

/-- Vector B14 row 4. -/
theorem test_store_w_post_inc :
    (ran13 (.storeInd .word .postInc .p2 .r1) (st13 [(.core .r2, 0x2000), (.core .r1, 0x12EF)] []) fun t =>
      [at_ t 0x1000, (t.reg .r2).toNat]) = some [0x12EF, 0x2002] := by decide

/-- Vector B14 row 5b: AdE, the pointer not updated; the vector is slot 5 (R453). -/
theorem test_load_w_odd_pre_inc :
    (ran13 (.loadInd .word .r1 .preInc .p2) (st13 [(.core .r2, 0x1FFF), (.core .sp, 0x7FF)] [(0xFFF5, 0x4000)]) fun t =>
      [(t.reg .r2).toNat, t.frWord.toNat, t.nextPc.toNat, (t.reg .sp).toNat]) = some [0x1FFF, 0x8008, 0x4000, 0x7FD] := by
  decide

/-- Vector B14 row 6. -/
theorem test_load_b_last_byte :
    (ran13 (.loadInd .byte .r1 .keep .p4) (st13 [(.core .r4, 0xFFFF), (.core .bp, 0x7F)] [(0x3FFFFF, 0x5A00)]) fun t =>
      [(t.reg .r1).toNat]) = some [0x005A] := by decide

/-- The unsigned example of A14 by DIVUU: the dividend shifted left once first, AQ set before it (R271, R274, D22). -/
theorem test_divuu :
    (ran13 .divuu (st .v13 0x8000 0 0x4008 [(.core .r4, 0x0006), (.core .r3, 0x2E26), (.core .r2, 0x0625)] []) fun t =>
      [(t.reg .r3).toNat]) = some [0x0080] := by decide +kernel

/-- The signed example of A14 by DIVSS (R271, R275). -/
theorem test_divss :
    (ran13 .divss (st13 [(.core .r4, 0xFFFE), (.core .r3, 0x2E26), (.core .r2, 0x0625)] []) fun t =>
      [(t.reg .r3).toNat]) = some [0xFFDA] := by decide +kernel

/-- MDS keeps the two page fields alone (R43, R317, R318). -/
theorem test_mds :
    (ran13 .mdsEqR3 (st13 [(.core .r3, 0xFFFF)] []) fun t => [t.mdsWord.toNat]) = some [0x3F3F] := by decide

/-! ### The parameters, DMA and the words fetched ahead (R6, R98, R100, R105, R123) -/

/-- With another map of the ALU codes XOR is 0111, and 1000 is no operation (R123). -/
theorem test_decode_alu_map :
    let p : Params := { Params.default with aluOps := { AluOpMap.table with xor := 7#4 } }
    decodeWords p [0x7302#16] = .ok (.xorReg .r1 .r2) ∧ decodeWords p [0x8302#16] = .error .aluOpHole := by decide

/-- A store to ROM and to an unbacked address is ignored; a read of the latter gives its word (R100). -/
theorem test_memory_map :
    let p : Params := { params .v12 with
      memmap := [{ first := 0x100, last := 0x1FF, kind := .rom }, { first := 0x200, last := 0x200, kind := .unbacked 7 }] }
    let s : State := { ws0 with cfg := p, mem := memOf [(0x100, 5), (0x200, 6)] }
    [((s.storeWord 0x100 9).storeWord 0x200 9).readWord 0x100, (s.storeWord 0x200 9).readWord 0x200] = [5#16, 7#16] := by
  decide

/-- What a DMA master writes between the two pushes of CALL is overwritten by the second, and not by the first (R98). -/
theorem test_dma_inside_call :
    let s : State := { ws0 with
      cfg := params .v12, dma := [[], [.write 0x7FF 0x1111, .write 0x7FE 0x2222]] }
    (match exec (.call 0#6 0x1234#16) s with
      | .next t => [(t.readWord 0x7FF).toNat, (t.readWord 0x7FE).toNat, t.dma.length]
      | .fault _ => []
      | .refused _ => []) = [0x1111, 0x40, 0] := by decide

/-- [2.0]: a store to the third word after the instruction stops, one to the fourth goes on (D5). -/
theorem test_store_ahead :
    (match exec (.storeA16 .r1 .sp 2#16) { ws0 with cfg := params .v20 } with
      | .refused r => decide (r = .storeAhead)
      | .next _ => false
      | .fault _ => false) = true ∧
      ran (st .v20 0x8000 0 8 [] [(0x8000, 0xD310), (0x8001, 0x8004)]) (fun _ => []) = none ∧
      ran (st .v20 0x8000 0 8 [] [(0x8000, 0xD310), (0x8001, 0x8005)]) (fun t => [t.nextPc.toNat]) = some [0x8002] ∧
      ran (st .v12 0x8000 0 8 [] [(0x8000, 0xD310), (0x8001, 0x8004)]) (fun t => [t.nextPc.toNat]) = some [0x8002] := by
  decide

/-! ### Requests (vectors B12) -/

/-- A state before a request: SP = 0x7FF, SR = 0x341 at 0x12345. -/
def before (v : Version) (fr : Nat) (mem : List (Nat × Nat)) (pins : Pins) : State :=
  { st v 0x12345 0x341 fr [(.core .sp, 0x7FF)] mem with pins := pins }

/-- IRQ3 with nesting on: PC, SR and FR pushed, PRI becomes 3 (R478). -/
theorem test_irq_nested :
    (ran (before .v12 0x438 [(0xFFFB, 0x9000)] { Pins.idle with irq := true, irqs := 3 }) fun t =>
      [at_ t 0x7FF, at_ t 0x7FE, at_ t 0x7FD, t.frWord.toNat, t.nextPc.toNat]) =
      some [0x2345, 0x341, 0x438, 0x33, 0x9000] := by decide

/-- FIQ of [1.3]: FR pushed, F and I cleared (R469). -/
theorem test_fiq_13 :
    (ran (before .v13 0x68 [(0xFFF6, 0xA000)] { Pins.idle with fiq := true }) fun t =>
      [at_ t 0x7FF, at_ t 0x7FE, at_ t 0x7FD, t.frWord.toNat, t.nextPc.toNat]) =
      some [0x2345, 0x341, 0x68, 8, 0xA000] := by decide

/-- [1.1] takes the lowest requesting line (R451). -/
theorem test_irq_lines :
    (ran (before .v11 0x28 [(0xFFF9, 0x9000)] { Pins.idle with irqLines := 0x12 }) fun t =>
      [(t.reg .sp).toNat, t.nextPc.toNat]) = some [0x7FD, 0x9000] := by decide

/-! ### Witnesses: each obligation with hypotheses has a state and operands that meet them -/

/-- The state a meaning or a step leaves; the given one where it stops. -/
def afterOr (s : State) (o : Out) : State :=
  match o with
  | .next t => t
  | .fault _ => s
  | .refused _ => s

/-- Whether a meaning or a step answers a next state. -/
def completes (o : Out) : Bool :=
  match o with
  | .next _ => true
  | .fault _ => false
  | .refused _ => false

/-- A meaning that answers a next state answers `afterOr`. -/
theorem eq_next_afterOr {s : State} {o : Out} (h : completes o = true) : o = .next (afterOr s o) := by
  cases o <;> first | rfl | cases h

/-- A state of version `v` with every core register, a page in DS, C set and two words of memory. -/
def ws (v : Version) : State :=
  st v 0x8000 0x0C40 0x808 [(.core .sp, 0x7FF), (.core .r1, 0x100), (.core .r2, 0x7FFF), (.core .r3, 3), (.core .r4, 4),
    (.core .bp, 0x7FFF)] [(0x100, 0xABCD), (0x7FFF, 2)]

/-- DecodeOfEncode: a core and an extended instruction. -/
theorem witness_decodeOfEncode :
    Instr.wellFormed (params .v10) (.addReg .pc .r2) = true ∧
      Instr.wellFormed (params .v20) (.extPush 7#3 .r15 (.ext .r8)) = true := by decide

/-- DecodedIsWellFormed. -/
theorem witness_decodedIsWellFormed :
    decode (params .v12) 0x0302#16 0 0 = .ok (.addReg .r1 .r2) ∧
      decode (params .v20) 0xFFC0#16 0x9110#16 0 = .ok (.extPrefix 0x9110#16) := by decide

/-- DecodeWrittenWords. -/
theorem witness_decodeWrittenWords :
    Params.default.ver = .v20 ∧ Params.default.extPrefix = .table ∧ Params.default.aluCodes = AluOpMap.table := by decide

/-- UnassignedWordsAreRefused: a word for each clause. -/
theorem witness_unassigned_patterns :
    ((params .v12).aluOps = AluOpMap.table ∧ opField 0x5C00#16 ∈ [5#4, 7#4] ∧ ¬ (rdField 0x5C00#16 = 7#3 ∧ (0x5C00#16).extractLsb' 7 2 = 0#2)) ∧
    (opField 0x7E80#16 ∈ [5#4, 7#4] ∧ ¬ (rdField 0x7E80#16 = 7#3 ∧ (0x7E80#16).extractLsb' 7 2 = 0#2)) ∧
    (opField 0xC080#16 ∉ [9#4, 13#4, 14#4, 15#4] ∧ modeField 0xC080#16 = 0b010#3) ∧
    (opField 0x9080#16 ∈ [9#4, 13#4] ∧ modeField 0x9080#16 = 0b010#3 ∧ (0x9080#16).extractLsb' 3 3 = 0#3) ∧
    (opField 0xEE80#16 = 14#4 ∧ rdField 0xEE80#16 = 7#3 ∧ (0xEE80#16).extractLsb' 7 2 ≠ 0#2) ∧
    (opField 0xE018#16 = 14#4 ∧ rdField 0xE018#16 ≠ 7#3 ∧ modeField 0xE018#16 = 0b000#3 ∧
      (0xE018#16).getLsbD 3 = true ∧ (0xE018#16).extractLsb' 4 2 ≠ 0#2) ∧
    (opField 0xF000#16 = 15#4 ∧ rdField 0xF000#16 ≠ 7#3 ∧ modeField 0xF000#16 = 0b000#3 ∧
      ((0xF000#16).extractLsb' 4 2 = 0#2 ∧ (0xF000#16).getLsbD 3 = false) ∧ (0xFC1F#16).extractLsb' 4 2 = 1#2 ∧
      rdField 0xFC1F#16 ≠ 7#3 ∧ modeField 0xFC1F#16 = 0b000#3) ∧
    (opField 0xF100#16 = 15#4 ∧ rdField 0xF100#16 ≠ 7#3 ∧ modeField 0xF100#16 = 0b100#3 ∧
      (0xF100#16).extractLsb' 3 3 ≠ 1#3) ∧
    (opField 0xF150#16 = 15#4 ∧ (0xF150#16).extractLsb' 4 5 = 0b10101#5) ∧
    (opField 0xF166#16 = 15#4 ∧ (0xF166#16).extractLsb' 5 4 = 0b1011#4 ∧ (0xF166#16).extractLsb' 0 3 ∈ [6#3, 7#3]) ∧
    (opField 0xFFC0#16 = 15#4 ∧ rdField 0xFFC0#16 = 7#3 ∧ modeField 0xFFC0#16 ∈ [0b100#3, 0b110#3, 0b111#3] ∧
      ((params .v12).ver = .v20 → 0xFFC0#16 ≠ (params .v12).prefixWord)) ∧
    (modeField 0xFF00#16 ∈ [0b100#3, 0b110#3, 0b111#3] ∧ 0xFF00#16 ≠ (params .v20).prefixWord) ∧
    (opField 0xDC40#16 = 13#4 ∧ rdField 0xDC40#16 ≠ 7#3 ∧ modeField 0xDC40#16 = 0b001#3) ∧
    (opField 0xDFBF#16 = 13#4 ∧ modeField 0xDFBF#16 ∈ [0b101#3, 0b110#3]) ∧
    (opField 0xD118#16 = 13#4 ∧ modeField 0xD118#16 = 0b100#3 ∧
      ¬ ((0xD118#16).extractLsb' 4 2 = 1#2 ∧ (0xD118#16).getLsbD 3 = (params .v12).storeW)) ∧
    (opField 0x9118#16 = 9#4 ∧ modeField 0x9118#16 = 0b100#3 ∧ (0x9118#16).extractLsb' 3 3 = 3#3) := by
  and_intros <;> decide

/-- UnassignedWordsAreRefused, (a) with a map of the codes of its own. -/
theorem witness_unassigned_map :
    let own : Params := { params .v12 with aluOps := { AluOpMap.table with xor := 7#4 } }
    opField 0x8400#16 ∉ [13#4, 14#4, 15#4] ∧ (∀ op : AluOp, own.aluNum op ≠ opField 0x8400#16) ∧
      ¬ (rdField 0x8400#16 = 7#3 ∧ (0x8400#16).extractLsb' 7 2 = 0#2) :=
  ⟨by decide, fun op => by cases op <;> decide, by decide⟩

/-- The step of UnassignedWordsAreRefused: a state of [1.2] whose next word is no instruction. -/
def wUnassigned : State := st .v12 0x8000 0 8 [] [(0x8000, 0x5241)]

theorem witness_unassigned_step :
    (wUnassigned.pins.reset = false ∧ wUnassigned.stalled = false ∧ wUnassigned.dmaGranted = false) ∧
      wUnassigned.sampled = none ∧ wUnassigned.cfg.firstWord (wUnassigned.load (wUnassigned.seqAddr 0)).1 = 0x5241#16 ∧
      (∀ w1 w2 : Word, decode wUnassigned.cfg 0x5241#16 w1 w2 = .error .aluOpHole) ∧
      (wUnassigned.cfg.ver = .v13 → Config.decode13 0x5241#16 = none) :=
  ⟨by decide, by decide, by decide, fun _ _ => rfl, fun h => absurd h (by decide)⟩

/-- A state of version `v` whose next instruction, two words long, begins at the last word of page 1. -/
def wStep (v : Version) : State := st v 0x1FFFF 1 8 [] [(0x1FFFF, 0x0509), (0x20000, 0x8000), (0x10000, 0x8000)]

/-- StepRunsDecodedInstruction: the words may cross the end of a page; [1.0], [1.1] and [2.0]. -/
theorem witness_stepRuns : [Version.v10, .v11, .v20].all (fun v =>
    let s := wStep v
    !s.pins.reset && !s.stalled && !s.dmaGranted && decide (s.sampled = none) &&
      decide (decode s.cfg (s.cfg.firstWord (s.load (s.seqAddr 0)).1) ((s.load (s.seqAddr 0)).2.load (s.seqAddr 1)).1 0 =
        .ok (.addIm16 .r2 .r1 0x8000#16))) = true := by decide

/-- StepRunsDecodedInstruction: in [1.3] a word of no table may be an instruction of the abstract decoder, whose answers
no one knows. -/
theorem witness_stepRuns13 (i : Instr13) (h : Config.decode13 0x5241#16 = some i) :
    let s := st .v13 0x8000 0 8 [] [(0x8000, 0x5241)]
    (s.pins.reset = false ∧ s.stalled = false ∧ s.dmaGranted = false) ∧ s.sampled = none ∧ s.cfg.ver = .v13 ∧
      s.cfg.firstWord (s.load (s.seqAddr 0)).1 = 0x5241#16 ∧ decode s.cfg 0x5241#16 0 0 = .error .aluOpHole ∧
      Config.decode13 0x5241#16 = some i :=
  ⟨by decide, by decide, by decide, by decide, by decide, h⟩

/-- StepKeepsInv and StepKeepsParametersAndPins: a nested IRQ over an IRQ, with words in memory. -/
def wInv : State :=
  { before .v12 0x438 [(0xFFFB, 0x9000)] { Pins.idle with irq := true, irqs := 3 } with svc := [.irq] }

theorem witness_stepKeepsInv :
    (Memory.wf wInv.mem = true ∧ svcOrdered wInv.cfg.ver wInv.svc = true) ∧
      step wInv = .next (afterOr wInv (step wInv)) := ⟨by decide, eq_next_afterOr (by decide)⟩

/-- A state of [2.0] whose next instruction stores. -/
def wStore : State := st .v20 0x8000 0 8 [(.core .r1, 0x1234)] [(0x8000, 0xD310), (0x8001, 0x2480)]

/-- StepKeepsInv on an instruction that stores. -/
theorem witness_stepKeepsInv_store :
    (Memory.wf wStore.mem = true ∧ svcOrdered wStore.cfg.ver wStore.svc = true) ∧
      step wStore = .next (afterOr wStore (step wStore)) := ⟨by decide, eq_next_afterOr (by decide)⟩

/-- ResetLeaves. -/
theorem witness_resetLeaves : ({ ws .v12 with pins := { Pins.idle with reset := true } } : State).pins.reset = true := by
  decide

/-- HoldingPins: each pin. -/
theorem witness_holdingPins :
    ((params .v12).ver = .v12 ∨ (params .v12).ver = .v13) ∧ ((params .v13).ver = .v12 ∨ (params .v13).ver = .v13) ∧
      ([{ Pins.idle with sleep := true }, { Pins.idle with pd := true }, { Pins.idle with hdumprom := true }].all
        fun p => !p.reset && (p.sleep || p.pd || p.hdumprom)) = true ∧
      (let p := { Pins.idle with dmaq := true }
       p.reset = false ∧ p.sleep = false ∧ p.pd = false ∧ p.hdumprom = false ∧ p.dmaq = true) := by decide

/-- The statements that ask for a memory in canonical form (MemoryReadAfterWrite, Direct16WriteAluForms, StoreForms,
BitMemoryForms, CallSavesReturnState, BreakEnters): a memory with words. -/
theorem witness_memory : Memory.wf (ws .v12).mem = true ∧ (ws .v12).mem ≠ [] := by decide

/-- Parameters with a region of each kind. -/
def wMap (v : Version) : Params :=
  { params v with
    memmap := [{ first := 0x100, last := 0x1FF, kind := .rom }, { first := 0x200, last := 0x200, kind := .unbacked 7 },
      { first := 0x3FFFFF, last := 0x3FFFFF, kind := .device }] }

/-- MemoryReadAfterWrite, StepKeepsParametersAndPins: each kind of backing at the ends of its region, and each form of
the list ahead of a version with DMA and of one without. -/
theorem witness_backing :
    (wMap .v12).backing 0xFF = .ram ∧ (wMap .v12).backing 0x100 = .rom ∧ (wMap .v12).backing 0x1FF = .rom ∧
      (wMap .v12).backing 0x200 = .unbacked 7 ∧ (wMap .v12).backing 0x3FFFFF = .device ∧
      ((wMap .v12).ver = .v12 ∨ (wMap .v12).ver = .v13) ∧ ¬ ((wMap .v20).ver = .v12 ∨ (wMap .v20).ver = .v13) ∧
      ({ ws .v12 with dma := [[.read 5, .write 6 7], []] } : State).dma = (.read 5 :: [.write 6 7]) :: [[]] ∧
      ({ ws .v12 with dma := [[], []] } : State).dma = [] :: [[]] := by decide

/-- A word of RAM that no DMA access ahead writes is kept. -/
theorem kept_of (s : State) (a : Addr) (h : s.cfg.backing a = .ram) (hd : s.dma = []) : Kept s a :=
  ⟨h, fun e => by obtain ⟨_, l, hl, _⟩ := e; rw [hd] at hl; cases hl⟩

theorem steady_of (s : State) (a : Addr) (h : s.cfg.backing a = .ram) (hd : s.dma = []) : Steady s a :=
  ⟨by rw [h]; exact Backing.noConfusion, (kept_of s a h hd).2⟩

/-- No word is ahead but in [2.0]. -/
theorem not_ahead (s : State) (a : Addr) (h : s.cfg.ver ≠ .v20) : ¬ Ahead s a := fun e => h e.1

/-- The statements about stores: in [2.0] the third word after the instruction is ahead, the fourth is not. -/
theorem witness_ahead : Ahead (st .v20 0x8000 0 8 [] []) 0x8002 ∧ ¬ Ahead (st .v20 0x8000 0 8 [] []) 0x8003 := by
  refine ⟨⟨by decide, 2, by decide, by decide⟩, ?_⟩
  rintro ⟨_, k, hk, h⟩
  interval_cases k <;> exact absurd h (by decide)

/-- The statements about stacks: with SP at the third word after the instruction of [2.0] a pushed word is ahead. -/
theorem witness_stackAhead :
    StackAhead (.core .sp) 2 (st .v20 0x8000 0 8 [(.core .sp, 0x8003)] []) ∧
      ¬ StackAhead (.core .sp) 2 (ws .v12) :=
  ⟨⟨1, by decide, by decide, 2, by decide, by decide⟩, fun h => by obtain ⟨_, _, h⟩ := h; exact absurd h.1 (by decide)⟩

/-- IndirectAluForms, IndirectStoreForms: a kept pointer that is Rd and PC, and updates of another register. -/
theorem witness_pointerFree :
    PointerFree .keep (.core .pc) (.core .pc) ∧ PointerFree .postInc (.core .r1) (.core .r2) ∧
      PointerFree .preInc (.core .pc) (.core .bp) ∧ PointerFree .keep (.ext .r9) (.ext .r9) ∧
      PointerFree .postDec (.ext .r8) (.ext .r15) := by
  unfold PointerFree; decide

/-- FlagsExample. -/
theorem witness_flagsExample : (ws .v12).regs.bp = 0x7FFF#16 := by decide

/-- OverflowIffNDiffersFromS: with and without overflow. -/
theorem witness_overflow :
    (Reg.bp ≠ .pc ∧ Reg.bp ≠ .sr) ∧
      (afterOr (ws .v12) (exec (.addReg .bp .r2) (ws .v12))).status.n ≠
        (afterOr (ws .v12) (exec (.addReg .bp .r2) (ws .v12))).status.s ∧
      (afterOr (ws .v12) (exec (.addReg .r3 .r4) (ws .v12))).status.n =
        (afterOr (ws .v12) (exec (.addReg .r3 .r4) (ws .v12))).status.s := by decide

/-- ExtendedAluForms. -/
theorem witness_extended : (ws .v20).cfg.ver = .v20 := by decide

/-- RefusedOperandsStop: each clause at the boundary of its operands. -/
theorem witness_refusedOperands :
    (PtrMode.postInc ≠ .keep ∧ (Reg.r1 = .r1 ∨ Reg.r1 = .sr ∨ Reg.r1 = .pc) ∧ (Reg.sr = .r1 ∨ Reg.sr = .sr ∨ Reg.sr = .pc)) ∧
      (0#3 = 0#3 ∨ Reg.sp.num.toNat + 1 < (0#3).toNat) ∧ (2#3 = 0#3 ∨ Reg.sp.num.toNat + 1 < (2#3).toNat) ∧
      (2#3 = 0#3 ∨ 7 < Reg.sr.num.toNat + (2#3).toNat) ∧
      ((5#3).toNat ≤ Reg.r4.num.toNat + 1 ∧ 4 < (5#3).toNat ∧ regPlus .r4 (-4) = .core .sp) ∧
      (Reg.bp.num.toNat + (2#3).toNat ≤ 7 ∧ 1 ≤ 2 ∧ 2 ≤ (2#3).toNat ∧ regPlus .bp 2 = .core .pc) ∧
      (XReg.r8.num.toNat + 1 < (2#3).toNat ∧ 8 < ((6#3).toNat + 1) % 8 + (2#3).toNat) ∧
      ((7#3).toNat ≤ XReg.r15.num.toNat + 1 ∧ 6 < (7#3).toNat ∧
        (.ext .r9 : GReg) = xregAt (XReg.r15.num.toNat - (6 : Nat))) ∧
      (((7#3).toNat + 1) % 8 + (7#3).toNat ≤ 8 ∧ 6 < (7#3).toNat ∧
        (.ext .r14 : GReg) = xregAt ((((7#3).toNat + 1) % 8 + 6 : Nat))) := by decide

/-- PushStoresDownwards: the lowest register is SP, one register alone, and seven extend registers. -/
theorem witness_push :
    Memory.wf (ws .v12).mem = true ∧ 5#3 ≠ 0#3 ∧
      ((5#3).toNat ≤ Reg.r4.num.toNat + 1 ∧ (∀ i : Nat, i < (5#3).toNat → GReg.core .bp ≠ regPlus .r4 (-i))) ∧
      ((1#3).toNat ≤ Reg.pc.num.toNat + 1 ∧ (∀ i : Nat, i < (1#3).toNat → GReg.core .sp ≠ regPlus .pc (-i))) ∧
      ((7#3).toNat ≤ XReg.r15.num.toNat + 1 ∧
        (∀ i : Nat, i < (7#3).toNat → GReg.ext .r8 ≠ xregAt (XReg.r15.num.toNat - i))) := by decide

/-- PopLoadsUpwards: all seven registers above SP, PC among them, the flags clause in [1.0] and [1.2], a set through SR,
PC alone through SR and through SP (witness_steady meets what is said of the words). -/
theorem witness_pop :
    (7#3 ≠ 0#3 ∧ Reg.sp.num.toNat + (7#3).toNat ≤ 7 ∧
      (∀ i : Nat, 1 ≤ i → i ≤ (7#3).toNat → GReg.core .sp ≠ regPlus .sp i)) ∧
      (5#3 ≠ 0#3 ∧ Reg.sp.num.toNat + (5#3).toNat < 6 ∧ Reg.sp ≠ .sr) ∧ (ws .v10).cfg.ver.is12Plus = false ∧
      (ws .v12).cfg.ver.is12Plus = true ∧
      (Reg.sp ≠ .sr ∧ ∀ i : Nat, 1 ≤ i → i ≤ (5#3).toNat → GReg.core .sr ≠ regPlus .sp i) ∧
      ((1#3).toNat + Reg.sr.num.toNat ≤ 7 ∧
        (∀ i : Nat, 1 ≤ i → i ≤ (1#3).toNat → GReg.core .sr ≠ regPlus .sr i) ∧
        ∀ i : Nat, 1 ≤ i → i ≤ (1#3).toNat → GReg.core .sp ≠ regPlus .sr i) := by
  refine ⟨⟨by decide, by decide, ?_⟩, by decide, by decide, by decide, ⟨by decide, ?_⟩, by decide, ?_, ?_⟩
  · intro i h1 h2
    have h3 : i ≤ 7 := h2
    interval_cases i <;> decide
  · intro i h1 h2
    have h3 : i ≤ 5 := h2
    interval_cases i <;> decide
  · intro i h1 h2
    have h3 : i ≤ 1 := h2
    interval_cases i
    decide
  · intro i h1 h2
    have h3 : i ≤ 1 := h2
    interval_cases i
    decide

/-- POP of PC through SR, by hand from R173: SR = 0x003F steps to 0x0040, the word there goes to PC, and the page is that of
nextpc, 0x3F. -/
theorem test_pop_pc_through_sr :
    (ran (st .v12 0x3F0000 0 8 [] [(0x3F0000, 0x9C8E), (0x40, 0x1234)]) fun t =>
      [t.nextPc.toNat, t.srWord.toNat]) = some [0x3F1234, 0x007F] := by decide

/-- ExtPopLoadsUpwards: both readings of the field, to the last register. -/
theorem witness_extPop :
    (ws .v20).cfg.ver = .v20 ∧ (7#3 ≠ 0#3 ∧ ((0#3).toNat + 1) % 8 + (7#3).toNat ≤ 8 ∧ (1#3).toNat + (7#3).toNat ≤ 8) ∧
      ∀ i : Nat, 1 ≤ i → i ≤ (7#3).toNat → GReg.core .sp ≠ xregAt (1 + i - 1) := by
  refine ⟨by decide, by decide, ?_⟩
  intro i _ _ h
  cases h

/-- PopUndoesPush. -/
theorem witness_popUndoesPush :
    Memory.wf (ws .v12).mem = true ∧ Reg.sp ≠ .sr ∧ Reg.sp ≠ .pc ∧ Reg.sr ≠ .pc ∧
      Reg.sp.num.toNat + (6#3).toNat = Reg.sr.num.toNat ∧
      (∀ i : Nat, i < (6#3).toNat → Kept (ws .v12) (stackDown (ws .v12) (.core .sp) i)) ∧
      exec (.push .sr 6#3 .sp) (ws .v12) = .next (afterOr (ws .v12) (exec (.push .sr 6#3 .sp) (ws .v12))) :=
  ⟨by decide, by decide, by decide, by decide, by decide, fun _ _ => kept_of _ _ rfl rfl, eq_next_afterOr (by decide)⟩

/-- OrShiftResults, OrShiftsMakeThirtyTwoBitShifts. -/
theorem witness_orShifts : Reg.r3 ≠ .r4 ∧ Reg.sr ≠ .r3 ∧ Reg.r1 ≠ .r3 ∧ Reg.r1 ≠ .r4 := by decide

/-- MulPutsProductInMr: both clauses. -/
theorem witness_mul :
    ((ws .v12).cfg.ver.is12Plus = true ∨ (Reg.sp ∈ [.r1, .r2, .r3, .r4, .bp] ∧ Reg.pc ∈ [.r1, .r2, .r3, .r4, .bp])) ∧
      (Reg.r3 ∈ [.r1, .r2, .r3, .r4, .bp] ∧ Reg.bp ∈ [.r1, .r2, .r3, .r4, .bp]) ∧
      ((ws .v10).cfg.ver.is12Plus = false ∧ ¬ (Reg.sp ∈ [.r1, .r2, .r3, .r4, .bp] ∧ Reg.r1 ∈ [.r1, .r2, .r3, .r4, .bp])) := by
  decide

/-- MulsSumsProducts: sixteen levels with the move off, one level with it on, and [1.0]. -/
theorem witness_muls :
    (Reg.r1 ≠ .r2 ∧ MulsOperandsOk (ws .v12).cfg.ver .r1 .r2 (levelCount 0#4) ∧ (ws .v12).flags.fir = true) ∧
      (MulsOperandsOk .v13 .r3 .r4 (levelCount 1#4) ∧ 1#4 = 1#4) ∧ MulsOperandsOk .v10 .r1 .bp (levelCount 15#4) := by
  unfold MulsOperandsOk; decide

/-- MulsSumsProducts, MulsMovesForward, MulsOnOnePointer, the POP statements: words that stay. -/
theorem witness_steady (a : Addr) : Steady (ws .v12) a ∧ Kept (ws .v12) a := ⟨steady_of _ a rfl rfl, kept_of _ a rfl rfl⟩

/-- A state with the FIR move on, the two arrays apart. -/
def wFir : State := st .v13 0x8000 0 8 [(.core .r1, 0x100), (.core .r2, 0x200)] [(0x100, 1), (0x101, 2), (0x200, 3)]

/-- MulsMovesForward. -/
theorem witness_mulsMove :
    Reg.r1 ≠ .r2 ∧ MulsOperandsOk wFir.cfg.ver .r1 .r2 (levelCount 3#4) ∧ wFir.flags.fir = false ∧ 3#4 ≠ 1#4 ∧
      Memory.wf wFir.mem = true ∧
      (∀ i j : Nat, i < levelCount 3#4 → 1 ≤ j → j < i →
        mulsAddr wFir.cfg.ver wFir.mds.segS (wFir.reg .r2) i ≠ mulsAddr wFir.cfg.ver wFir.mds.segD (wFir.reg .r1) j) := by
  refine ⟨by decide, by unfold MulsOperandsOk; decide, by decide, by decide, by decide, ?_⟩
  intro i j hi h1 h2
  have h3 : i < 3 := hi
  have h4 : i = 2 := by omega
  have h5 : j = 1 := by omega
  subst h4 h5
  decide

/-- MulsOnOnePointer: the same register in [1.2] and [2.0], the operands that stop, the operands that complete. -/
theorem witness_mulsOnePointer :
    ((ws .v12).cfg.ver = .v12 ∨ (ws .v12).cfg.ver = .v20) ∧ MulsOperandsOk (ws .v12).cfg.ver .r1 .r1 (levelCount 2#4) ∧
      (ws .v12).flags.fir = true ∧ ¬ MulsOperandsOk .v12 .r3 .r3 (levelCount 2#4) ∧
      ¬ MulsOperandsOk .v10 .r1 .r1 (levelCount 1#4) ∧ MulsOperandsOk .v13 .r3 .r3 (levelCount 1#4) := by
  unfold MulsOperandsOk; decide

/-- MulsOnOnePointer: in [2.0] the word the move stores two above the pointer is ahead. -/
theorem witness_mulsOnePointer_ahead :
    let s := st .v20 0x8000 0 8 [(.core .r1, 0x8000)] []
    MulsOperandsOk .v20 .r1 .r1 (levelCount 2#4) ∧ s.flags.fir = false ∧ 1 ≤ 1 ∧ 1 < levelCount 2#4 ∧
      Ahead s (mkAddr 0 (s.reg .r1 + BitVec.ofNat 16 (2 * 1))) :=
  ⟨by unfold MulsOperandsOk; decide, by decide, by decide, by decide, by decide, 2, by decide, by decide⟩

/-- DivuuDivides: the least divisor with the greatest dividend, and the greatest divisor. -/
theorem witness_divuu :
    (let s := st13 [(.core .r4, 1), (.core .r3, 0xFFFE), (.core .r2, 1)] []
     s.mr.toNat = 2 * 65535 ∧ 1 ≤ (s.reg .r2).toNat ∧ (s.reg .r2).toNat ≤ 0x7FFF ∧
       65535 < (s.reg .r2).toNat * 65536) ∧
      (let s := st13 [(.core .r4, 0), (.core .r3, 0), (.core .r2, 0x7FFF)] []
       s.mr.toNat = 2 * 0 ∧ 1 ≤ (s.reg .r2).toNat ∧ (s.reg .r2).toNat ≤ 0x7FFF ∧
       0 < (s.reg .r2).toNat * 65536) := by decide

/-- DataSegmentAccess, FlagRegisterAccess, StackAndProductSegments: a destination that is not PC, SR among them. -/
theorem witness_not_pc : Reg.sr ≠ .pc ∧ Reg.r1 ≠ .pc ∧ Reg.r1 ≠ .sr := by decide

/-- A state with the second bank in use. -/
def wBank : State := st .v12 0x8000 0 0x2008 [] []

/-- BankNotInUseIsUntouched: both banks and an instruction that changes BNK. -/
theorem witness_banks :
    (wBank.bank = true ∧ exec (.addReg .r1 .r2) wBank = .next (afterOr wBank (exec (.addReg .r1 .r2) wBank))) ∧
      ((ws .v12).bank = false ∧
        exec (.secbank true) (ws .v12) = .next (afterOr (ws .v12) (exec (.secbank true) (ws .v12))) ∧
        (afterOr (ws .v12) (exec (.secbank true) (ws .v12))).flags.bnk ≠ (ws .v12).flags.bnk) :=
  ⟨⟨by decide, eq_next_afterOr (by decide)⟩, by decide, eq_next_afterOr (by decide), by decide⟩

/-- OnlyExtendedInstructionsWriteExtendRegisters: an instruction that is none, and one that changes SVC. -/
theorem witness_not_extended :
    isExtended Instr.brk.shape = false ∧
      exec .brk (ws .v12) = .next (afterOr (ws .v12) (exec .brk (ws .v12))) ∧
      (afterOr (ws .v12) (exec .brk (ws .v12))).svc ≠ (ws .v12).svc :=
  ⟨by decide, eq_next_afterOr (by decide), by decide⟩

/-- BranchConditions, BranchesGoToTheirTargets: a condition that holds and one that does not. -/
theorem witness_branches : decide ((ws .v12).status.c = true) = true ∧ decide ((ws .v12).status.c = false) = false := by
  decide

/-- The state after a CALL. -/
def wCalled : State := afterOr (ws .v11) (exec (.call 1#6 0x2345#16) (ws .v11))

/-- A state a called routine may reach before its RETF. -/
def wRoutine : State := { wCalled with status := { wCalled.status with z := true }, pc := 0x9999 }

/-- RetfReturnsFromCall. -/
theorem witness_retfReturns :
    Memory.wf (ws .v11).mem = true ∧ exec (.call 1#6 0x2345#16) (ws .v11) = .next wCalled ∧ wRoutine.mem = wCalled.mem ∧
      wRoutine.regs = wCalled.regs ∧ wRoutine.ss = wCalled.ss ∧ wRoutine.cfg = wCalled.cfg ∧
      ∀ k : Nat, k < 2 →
        Kept (ws .v11) (stackDown (ws .v11) (.core .sp) k) ∧ Kept wRoutine (stackDown (ws .v11) (.core .sp) k) :=
  ⟨by decide, eq_next_afterOr (by decide), rfl, rfl, rfl, rfl, fun _ _ => ⟨kept_of _ _ rfl rfl, kept_of _ _ rfl rfl⟩⟩

/-- RetiReturns: with nothing in service, and both values of its condition. -/
theorem witness_reti :
    (ws .v12).svc = [] ∧ (wInv.svc.head? = some .irq ∧ wInv.flags.ine = true) ∧
      (ws .v13).svc.head? ≠ some .irq := by decide

/-- RequestsAreTaken: an FIQ, an IRQ of [1.1] at the highest line and of [1.2] at the last number PRI admits, a step after
an instruction that holds sampling back, and no request. -/
theorem witness_requests :
    (let s := before .v11 0x40 [] { Pins.idle with fiq := true }
     (s.pins.reset = false ∧ s.stalled = false ∧ s.dmaGranted = false) ∧ Memory.wf s.mem = true ∧ s.hold = false ∧
       (s.pins.fiq = true ∧ s.flags.f = true ∧ Level.fiq ∉ s.svc)) ∧
      (let s := before .v11 0x20 [] { Pins.idle with irqLines := 0x80 }
       s.pins.irqLines.getLsbD (7#3).toNat = true ∧
         (∀ m : Nat, m < (7#3).toNat → s.pins.irqLines.getLsbD m = false) ∧ s.flags.i = true ∧ Level.irq ∉ s.svc ∧
         Level.fiq ∉ s.svc) ∧
      (let s := before .v12 0x24 [] { Pins.idle with irq := true, irqs := 3 }
       s.pins.irq = true ∧ s.pins.irqs = 3#3 ∧ s.flags.i = true ∧ (3#3).toNat < s.flags.pri.toNat ∧
         s.svc.head? ≠ some .brk ∧ s.svc.head? ≠ some .fiq ∧ (s.svc.head? = some .irq → s.flags.ine = true)) ∧
      ({ ws .v12 with hold := true } : State).hold = true := by decide

/-- RequestsAreTaken: with no line active nothing is taken. -/
theorem witness_noRequest : ∀ e : Event, ¬ Takes (before .v12 0x24 [] Pins.idle) e := by
  intro e h
  cases e with
  | brk => exact False.elim h
  | ade => exact False.elim h
  | fiq => exact absurd (And.left h) (by decide)
  | irq n => exact absurd (And.left h) (by decide)

/-- The IRQ of `before` is taken (RequestsAreTaken, RetiRestoresInterruptedProgram). -/
def wIrq : State := before .v12 0x24 [] { Pins.idle with irq := true, irqs := 3 }

theorem witness_takes : Takes wIrq (.irq 3#3) ∧ ¬ Takes wIrq .fiq := by
  constructor
  · show wIrq.pins.irq = true ∧ wIrq.pins.irqs = 3#3 ∧ wIrq.flags.i = true ∧ (3#3).toNat < wIrq.flags.pri.toNat ∧
      wIrq.svc.head? ≠ some .brk ∧ wIrq.svc.head? ≠ some .fiq ∧ (wIrq.svc.head? = some .irq → wIrq.flags.ine = true)
    decide
  · show ¬ (wIrq.pins.fiq = true ∧ wIrq.flags.f = true ∧ wIrq.svc.head? ≠ some .brk ∧ wIrq.svc.head? ≠ some .fiq)
    decide

/-- A state the handler of `wIrq` may reach before its RETI. -/
def wHandler : State :=
  let t := afterOr wIrq (step wIrq)
  { t with pc := 0x9999, status := { t.status with n := true } }

/-- RetiRestoresInterruptedProgram: an entry, and a state the handler may reach. -/
theorem witness_retiRestores :
    (wIrq.pins.reset = false ∧ wIrq.stalled = false ∧ wIrq.dmaGranted = false) ∧ Memory.wf wIrq.mem = true ∧
      wIrq.hold = false ∧ (Event.irq 3#3 ≠ .fiq → ¬ Takes wIrq .fiq) ∧ step wIrq = .next (afterOr wIrq (step wIrq)) ∧
      wHandler.mem = (afterOr wIrq (step wIrq)).mem ∧ wHandler.regs = (afterOr wIrq (step wIrq)).regs ∧
      wHandler.ss = (afterOr wIrq (step wIrq)).ss ∧ wHandler.cfg = (afterOr wIrq (step wIrq)).cfg ∧
      wHandler.flags = (afterOr wIrq (step wIrq)).flags ∧ wHandler.sb = (afterOr wIrq (step wIrq)).sb ∧
      wHandler.svc = (afterOr wIrq (step wIrq)).svc ∧
      ∀ k : Nat, k < (if SavesFr wIrq (.irq 3#3) then 3 else 2) →
        Kept wIrq (stackDown wIrq (.core .sp) k) ∧ Kept wHandler (stackDown wIrq (.core .sp) k) :=
  ⟨by decide, by decide, by decide, fun _ => witness_takes.2, eq_next_afterOr (by decide), rfl, rfl, rfl, rfl, rfl, rfl,
    rfl, fun _ _ => ⟨kept_of _ _ rfl rfl, kept_of _ _ rfl rfl⟩⟩

/-- VectorTables: the last event, each TEST value and each version. -/
theorem witness_vectors :
    10 < 11 ∧ ((params .v20).ver = .v12 ∨ (params .v20).ver = .v20) ∧
      [0#2, 1#2, 2#2, 3#2].all (fun x => decide (({ params .v12 with test := x } : Params).test = x)) = true ∧
      ((params .v10).ver = .v10 ∨ (params .v10).ver = .v11) ∧ (params .v13).ver = .v13 := by decide

/-- ByteModeAccesses: a byte access at the last address, a word access at an even and at an odd one, a pointer that is Rd
where it is kept, and another one where it moves. -/
theorem witness_byteModes :
    let s := st13 [(.core .r4, 0xFFFF), (.core .bp, 0x7F), (.core .r2, 0x2000)] [(0x1000, 0xABCD)]
    Memory.wf s.mem = true ∧ (PtrMode.keep = .keep ∨ (Reg.r4 ≠ pairLow .p4 ∧ Reg.r4 ≠ pairHigh .p4)) ∧
      (PtrMode.postInc = .keep ∨ (Reg.r1 ≠ pairLow .p2 ∧ Reg.r1 ≠ pairHigh .p2)) ∧
      (Width.byte = .byte ∨ (specPairAddr .byte .keep .p4 s).getLsbD 0 = false) ∧
      specPairAddr .byte .keep .p4 s = 0x7FFFFF#23 ∧
      (Width.word = .byte ∨ (specPairAddr .word .preInc .p2 s).getLsbD 0 = false) ∧
      ¬ (Width.word = .byte ∨ (specPairAddr .word .keep .p4 s).getLsbD 0 = false) ∧
      ¬ (PtrMode.postInc = .keep ∨ (Reg.r3 ≠ pairLow .p2 ∧ Reg.r3 ≠ pairHigh .p2)) := by decide

/-- ByteModeAccesses: EBA_I and EBA_BP are parameters nobody knows; a byte access is aligned at every address, a word
access at the even ones. -/
theorem witness_byteModes_parameters (a : BitVec 23) :
    (Width.byte = .byte ∨ a.getLsbD 0 = false) ∧ (a.getLsbD 0 = false → Width.word = .byte ∨ a.getLsbD 0 = false) ∧
      (a.getLsbD 0 = true → ¬ (Width.word = .byte ∨ a.getLsbD 0 = false)) := by
  cases a.getLsbD 0 <;> decide

/-- NoSamplingAfter: an instruction of each kind. -/
theorem witness_noSampling :
    (Instr.loadA16 .r1 .r2 5#16).shape = .aluA16 .load false .r1 .r2 5#16 ∧
      (Instr.addA16 true .r1 .r2 5#16).shape = .aluA16 .add true .r1 .r2 5#16 := by decide


end Sys2Proof.Tests
end

namespace Sys2Proof.Proofs

open Sys2Proof Sys2Proof.Machine Sys2Proof.Laws

/-! ### What an instruction of each ALU shape does (R81 to R88, R219, R222, R412, R413)

`exec_eq_execShape` takes an instruction to its shape, and `aluWriteG_effect` or `aluStore_done` says what the shape's
end does; each lemma below joins the two for one operand form and every operation. -/

/-- The end of an ALU instruction whose destination is a register. -/
theorem aluDone_next (op : AluOp) (g : GReg) (a b : Word) (s : State) :
    AluDone (.next (s.aluWriteG op g a b)) op g a b s := ⟨_, rfl, aluWriteG_effect op g a b s⟩

section Forms

variable {i : Instr} {op : AluOp} {rd rs : Reg} {ra rb : GReg} {rx : XReg} {im : BitVec 6} {w : Word}

theorem exec_aluIm6_done (h : i.shape = .aluIm6 op rd im) (s : State) :
    AluDone (exec i s) op (.core rd) (s.reg rd) (BitVec.ofNat 16 im.toNat) s := by
  rw [exec_eq_execShape, h, BitVec.ofNat_toNat]
  exact aluDone_next op (.core rd) _ _ s

theorem exec_aluIm16_done (h : i.shape = .aluIm16 op rd rs w) (s : State) :
    AluDone (exec i s) op (.core rd) (s.reg rs) w s := by
  rw [exec_eq_execShape, h]
  exact aluDone_next op (.core rd) _ _ s

theorem exec_aluReg_done (h : i.shape = .aluReg op rd rs) (s : State) :
    AluDone (exec i s) op (.core rd) (s.reg rd) (s.reg rs) s := by
  rw [exec_eq_execShape, h]
  exact aluDone_next op (.core rd) _ _ s

theorem exec_extIm6_done (h : i.shape = .extIm6 op rx im) (s : State) :
    AluDone (exec i s) op (.ext rx) (s.xreg rx) (BitVec.ofNat 16 im.toNat) s := by
  rw [exec_eq_execShape, h, BitVec.ofNat_toNat]
  exact aluDone_next op (.ext rx) _ _ s

theorem exec_extIm16_done (h : i.shape = .extIm16 op ra rb w) (s : State) :
    AluDone (exec i s) op ra (s.greg rb) w s := by
  rw [exec_eq_execShape, h]
  exact aluDone_next op ra _ _ s

theorem exec_extReg_done (h : i.shape = .extReg op ra rb) (s : State) :
    AluDone (exec i s) op ra (s.greg ra) (s.greg rb) s := by
  rw [exec_eq_execShape, h]
  exact aluDone_next op ra _ _ s

/-! ### The forms with Y in memory

The address of the model is that of the rule, and the template runs after the load. -/

/-- `[BP+IM6]` (R83): the two sums of the model as one number each. -/
theorem bpEa_eq_specBpEa (s : State) (im : BitVec 6) : bpEa s im = specBpEa s im := by
  have him := im.isLt
  unfold bpEa specBpEa
  apply BitVec.eq_of_toNat_eq
  by_cases hv : s.cfg.ver = .v13
  · rw [if_pos hv, if_pos hv, BitVec.toNat_add, mkAddr_toNat, BitVec.toNat_setWidth, BitVec.toNat_ofNat]
    omega
  · rw [if_neg hv, if_neg hv, mkAddr_toNat, BitVec.toNat_add, BitVec.toNat_setWidth, BitVec.toNat_ofNat,
      show (0 : Page).toNat = 0 from rfl]
    omega

/-- `[BP+IM6]` outside 1.3 (R83). -/
theorem bpEa_page0 (s : State) (im : BitVec 6) (hv : s.cfg.ver ≠ .v13) :
    bpEa s im = mkAddr 0 (s.reg .bp + BitVec.ofNat 16 im.toNat) := by
  rw [BitVec.ofNat_toNat]
  exact if_neg hv

/-- `[A6]` (R84). -/
theorem a6Ea_eq_ofNat (a : BitVec 6) : a6Ea a = BitVec.ofNat 22 a.toNat := (BitVec.ofNat_toNat 22 a).symm

theorem exec_aluBpIm6_done (h : i.shape = .aluBpIm6 op rd im) (s : State) :
    AluLoadDone (exec i s) op (.core rd) (s.reg rd) (specBpEa s im) s := by
  rw [exec_eq_execShape, h, ← bpEa_eq_specBpEa]
  exact aluDone_next op (.core rd) _ _ _

theorem exec_aluA6_done (h : i.shape = .aluA6 op rd im) (s : State) :
    AluLoadDone (exec i s) op (.core rd) (s.reg rd) (BitVec.ofNat 22 im.toNat) s := by
  rw [exec_eq_execShape, h, ← a6Ea_eq_ofNat]
  exact aluDone_next op (.core rd) _ _ _

theorem exec_aluA16_load_done (h : i.shape = .aluA16 op false rd rs w) (s : State) :
    AluLoadDone (exec i s) op (.core rd) (s.reg rs) (mkAddr 0 w) s := by
  rw [exec_eq_execShape, h]
  exact aluDone_next op (.core rd) _ _ _

theorem exec_extBpIm6_done (h : i.shape = .extBpIm6 op rx im) (s : State) (hv : s.cfg.ver ≠ .v13) :
    AluLoadDone (exec i s) op (.ext rx) (s.xreg rx) (mkAddr 0 (s.reg .bp + BitVec.ofNat 16 im.toNat)) s := by
  rw [exec_eq_execShape, h, ← bpEa_page0 s im hv]
  exact aluDone_next op (.ext rx) _ _ _

theorem exec_extA6_done (h : i.shape = .extA6 op rx im) (s : State) :
    AluLoadDone (exec i s) op (.ext rx) (s.xreg rx) (BitVec.ofNat 22 im.toNat) s := by
  rw [exec_eq_execShape, h, ← a6Ea_eq_ofNat]
  exact aluDone_next op (.ext rx) _ _ _

theorem exec_extA16_load_done (h : i.shape = .extA16 op false ra rb w) (s : State) :
    AluLoadDone (exec i s) op ra (s.greg rb) (mkAddr 0 w) s := by
  rw [exec_eq_execShape, h]
  exact aluDone_next op ra _ _ _

/-! ### The forms that write [A16] -/

theorem exec_aluA16_store_done (h : i.shape = .aluA16 op true rd rs w) (s : State) (hm : Memory.wf s.mem = true) :
    AluStoreDone (exec i s) op (mkAddr 0 w) (s.reg rd) (s.reg rs) s := by
  rw [exec_eq_execShape, h]
  exact aluStore_done op (mkAddr 0 w) _ _ s hm

theorem exec_extA16_store_done (h : i.shape = .extA16 op true ra rb w) (s : State) (hm : Memory.wf s.mem = true) :
    AluStoreDone (exec i s) op (mkAddr 0 w) (s.greg ra) (s.greg rb) s := by
  rw [exec_eq_execShape, h]
  exact aluStore_done op (mkAddr 0 w) _ _ s hm

/-! ### The forms through a pointer -/

/-- An operand pair the spec does not refuse leaves SR and PC alone. -/
theorem pointerFree_notSpecial {m : PtrMode} {g p : GReg} (h : PointerFree m g p) :
    m = .keep ∨ (p ≠ .core .sr ∧ p ≠ .core .pc) := h.imp_right And.right

/-- The model refuses none of the core pairs the spec lets pass (R87). -/
theorem ptrConflict_of_pointerFree {m : PtrMode} (h : PointerFree m (.core rd) (.core rs)) :
    ptrConflict m rd rs = false := by
  rcases h with hm | ⟨hd, hsr, hpc⟩
  · simp [ptrConflict, hm]
  · have hne : ∀ r : Reg, (GReg.core rs ≠ .core r) → rs ≠ r := fun r hr e => hr (congrArg GReg.core e)
    simp [ptrConflict, hne rd hd, hne .sr hsr, hne .pc hpc]

/-- The template of a pointer form: the load at the pointer, the pointer's move, then the result (R86, R87, R222). -/
theorem indDone_next (op : AluOp) (g : GReg) (d : Bool) (m : PtrMode) (p : GReg) (s : State) (hp : PointerFree m g p) :
    IndDone (.next ((ptrCommit (s.load (ptrEa s d m (s.greg p))).2 d m p).aluWriteG op g (s.greg g)
      (s.load (ptrEa s d m (s.greg p))).1)) op g d m p s := by
  rw [ptrEa_eq]
  exact ⟨_, ptrCommit_moved _ d m p (pointerFree_notSpecial hp), aluDone_next op g _ _ _⟩

theorem exec_aluInd_done {d : Bool} {m : PtrMode} (h : i.shape = .aluInd op rd d m rs) (s : State)
    (hp : PointerFree m (.core rd) (.core rs)) : IndDone (exec i s) op (.core rd) d m (.core rs) s := by
  have hrun : exec i s = .next ((ptrCommit (s.load (ptrEa s d m (s.reg rs))).2 d m (.core rs)).aluWrite op rd (s.reg rd)
      (s.load (ptrEa s d m (s.reg rs))).1) := by
    rw [exec_eq_execShape, h]
    exact if_neg (by rw [ptrConflict_of_pointerFree hp]; exact Bool.false_ne_true)
  rw [hrun]
  exact indDone_next op (.core rd) d m (.core rs) s hp

theorem exec_extInd_done {d : Bool} {m : PtrMode} {ry : XReg} (h : i.shape = .extInd op rx d m ry) (s : State)
    (hp : PointerFree m (.ext rx) (.ext ry)) : IndDone (exec i s) op (.ext rx) d m (.ext ry) s := by
  have hfree : ¬ (m ≠ .keep ∧ rx = ry) := by
    rintro ⟨hm, rfl⟩
    exact (hp.resolve_left hm).1 rfl
  have hrun : exec i s = .next ((ptrCommit (s.load (ptrEa s d m (s.xreg ry))).2 d m (.ext ry)).aluWriteG op (.ext rx)
      (s.xreg rx) (s.load (ptrEa s d m (s.xreg ry))).1) := by
    rw [exec_eq_execShape, h]
    exact if_neg hfree
  rw [hrun]
  exact indDone_next op (.ext rx) d m (.ext ry) s hp

end Forms

/-! ### The 4-bit shifter (R213 to R218) -/

/-- A row of two parts as a number. -/
theorem append_toNat_eq {n m : Nat} (x : BitVec n) (y : BitVec m) : (x ++ y).toNat = x.toNat * 2 ^ m + y.toNat := by
  rw [BitVec.toNat_append, ← Nat.shiftLeft_add_eq_or_of_lt y.isLt, Nat.shiftLeft_eq]

/-- A 20-bit row rotated left: the bits that leave at the top come in at the bottom. -/
theorem rotateLeft_toNat_eq (t : BitVec 20) (n : Nat) (hn : n < 20) :
    (t.rotateLeft n).toNat = t.toNat % 2 ^ (20 - n) * 2 ^ n + t.toNat / 2 ^ (20 - n) := by
  have hpow : 2 ^ 20 = 2 ^ (20 - n) * 2 ^ n := by rw [← Nat.pow_add, Nat.sub_add_cancel hn.le]
  have hlow : t.toNat / 2 ^ (20 - n) < 2 ^ n := Nat.div_lt_of_lt_mul (hpow ▸ t.isLt)
  rw [BitVec.toNat_rotateLeft, Nat.mod_eq_of_lt hn, Nat.shiftLeft_eq, Nat.shiftRight_eq_div_pow, hpow,
    Nat.mul_mod_mul_right, ← Nat.shiftLeft_eq, ← Nat.shiftLeft_add_eq_or_of_lt hlow, Nat.shiftLeft_eq]

/-- A 20-bit row rotated right: the bits that leave at the bottom come in at the top. -/
theorem rotateRight_toNat_eq (t : BitVec 20) (n : Nat) (hn : n < 20) :
    (t.rotateRight n).toNat = t.toNat % 2 ^ n * 2 ^ (20 - n) + t.toNat / 2 ^ n := by
  have hpow : 2 ^ 20 = 2 ^ n * 2 ^ (20 - n) := by rw [← Nat.pow_add, Nat.add_sub_cancel' hn.le]
  have hlow : t.toNat / 2 ^ n < 2 ^ (20 - n) := Nat.div_lt_of_lt_mul (hpow ▸ t.isLt)
  rw [BitVec.toNat_rotateRight, Nat.mod_eq_of_lt hn, Nat.shiftLeft_eq, Nat.shiftRight_eq_div_pow, hpow,
    Nat.mul_mod_mul_right, Nat.or_comm, ← Nat.shiftLeft_eq, ← Nat.shiftLeft_add_eq_or_of_lt hlow, Nat.shiftLeft_eq]

/-- A 20-bit row shifted right with its sign: a floored division of the signed number it holds. -/
theorem sshiftRight_toNat_eq (v : Word) (sb : BitVec 4) (n : Nat) :
    (((v ++ sb : BitVec 20).sshiftRight n).toNat : Int) = (v.toInt * 16 + sb.toNat) / 2 ^ n % 2 ^ 20 := by
  rw [BitVec.sshiftRight, BitVec.toNat_ofInt, BitVec.toInt_append, Int.shiftRight_eq_div_pow,
    Int.toNat_of_nonneg (Int.emod_nonneg _ (by decide)), mul_comm v.toInt]
  rfl

/-- The register half of a row. -/
theorem shift4Out_shift4Row (k : Shift4) (y : Word) (b : BitVec 4) : shift4Out k (shift4Row k y b) = y := by
  have hy := y.isLt
  have hb := b.isLt
  apply BitVec.eq_of_toNat_eq
  cases k <;> simp only [shift4Out, shift4Row, BitVec.extractLsb'_toNat, append_toNat_eq,
    Nat.shiftRight_eq_div_pow] <;> omega

/-- The buffer half of a row. -/
theorem shift4Buf_shift4Row (k : Shift4) (y : Word) (b : BitVec 4) : shift4Buf k (shift4Row k y b) = b := by
  have hy := y.isLt
  have hb := b.isLt
  apply BitVec.eq_of_toNat_eq
  cases k <;> simp only [shift4Buf, shift4Row, BitVec.extractLsb'_toNat, append_toNat_eq,
    Nat.shiftRight_eq_div_pow] <;> omega

/-- The row after the shift is the row of the shifted register and the new buffer: what leaves one half of the 20 bits
enters the other. In the rotations `hquot` divides the row half by half, and `hout` and `hbuf` say what the sum in each
half carries out of it (for ROR, nothing). -/
theorem shift4Move_shift4Row (k : Shift4) (v : Word) (sb : BitVec 4) (n : Nat)
    (hn : n = 1 ∨ n = 2 ∨ n = 3 ∨ n = 4) :
    shift4Move k (shift4Row k v sb) n = shift4Row k (specShiftY k v sb n) (specShiftBuf k v sb n) := by
  have hv := v.isLt
  have hs := sb.isLt
  apply BitVec.eq_of_toNat_eq
  cases k with
  | asr =>
    have hrow := sshiftRight_toNat_eq v sb n
    have hmod : v.toInt % 65536 = v.toNat := by
      rw [BitVec.toInt_eq_toNat_bmod]
      exact Int.bmod_emod.trans (Int.emod_eq_of_lt (Int.natCast_nonneg _) (by exact_mod_cast hv))
    simp only [shift4Move, shift4Row, append_toNat_eq, specShiftY, specShiftBuf, BitVec.toNat_ofInt, BitVec.toNat_ofNat]
    rcases hn with rfl | rfl | rfl | rfl <;> omega
  | lsl =>
    simp only [shift4Move, shift4Row, append_toNat_eq, specShiftY, specShiftBuf, BitVec.toNat_shiftLeft,
      Nat.shiftLeft_eq, BitVec.toNat_ofNat]
    rcases hn with rfl | rfl | rfl | rfl <;> omega
  | lsr =>
    simp only [shift4Move, shift4Row, append_toNat_eq, specShiftY, specShiftBuf, BitVec.toNat_ushiftRight,
      Nat.shiftRight_eq_div_pow, BitVec.toNat_ofNat]
    rcases hn with rfl | rfl | rfl | rfl <;> omega
  | rol =>
    have hquot : (sb.toNat * 2 ^ 16 + v.toNat) / 2 ^ (20 - n) = sb.toNat / 2 ^ (4 - n) := by
      rcases hn with rfl | rfl | rfl | rfl <;> omega
    have hout : (v.toNat * 2 ^ n + sb.toNat / 2 ^ (4 - n)) / 2 ^ 16 = v.toNat / 2 ^ (16 - n) := by
      rcases hn with rfl | rfl | rfl | rfl <;> omega
    have hbuf : (sb.toNat * 2 ^ n + v.toNat / 2 ^ (16 - n)) / 2 ^ 4 = sb.toNat / 2 ^ (4 - n) := by
      rcases hn with rfl | rfl | rfl | rfl <;> omega
    simp only [shift4Move, shift4Row, rotateLeft_toNat_eq _ n (by omega), append_toNat_eq, specShiftY, specShiftBuf,
      BitVec.toNat_ofNat]
    rcases hn with rfl | rfl | rfl | rfl <;> omega
  | ror =>
    have hquot : (v.toNat * 2 ^ 4 + sb.toNat) / 2 ^ n = v.toNat * 2 ^ (4 - n) + sb.toNat / 2 ^ n := by
      rcases hn with rfl | rfl | rfl | rfl <;> omega
    have hout : v.toNat / 2 ^ n + sb.toNat % 2 ^ n * 2 ^ (16 - n) < 2 ^ 16 := by
      rcases hn with rfl | rfl | rfl | rfl <;> omega
    have hbuf : v.toNat % 2 ^ n * 2 ^ (4 - n) + sb.toNat / 2 ^ n < 2 ^ 4 := by
      rcases hn with rfl | rfl | rfl | rfl <;> omega
    simp only [shift4Move, shift4Row, rotateRight_toNat_eq _ n (by omega), append_toNat_eq, specShiftY, specShiftBuf,
      BitVec.toNat_ofNat, Nat.mod_eq_of_lt hout, Nat.mod_eq_of_lt hbuf]
    rcases hn with rfl | rfl | rfl | rfl <;> omega

/-- The counts `nn` holds (R127). -/
theorem shiftCount_cases (nn : BitVec 2) :
    shiftCount nn = 1 ∨ shiftCount nn = 2 ∨ shiftCount nn = 3 ∨ shiftCount nn = 4 := by
  have := nn.isLt
  unfold shiftCount
  omega

/-- A write of the shift buffer in use (R36, R473). -/
theorem setShiftBuf_eq_withShiftBuf (s : State) (v : BitVec 4) : s.setShiftBuf v = withShiftBuf s v := by
  unfold State.setShiftBuf withShiftBuf
  by_cases hf : Level.fiq ∈ s.svc
  · simp only [hf, if_true]
  · by_cases hi : Level.irq ∈ s.svc <;> simp only [hf, hi, if_true, if_false]

theorem exec_aluShift_done {i : Instr} {op : AluOp} {k : Shift4} {rd rs : Reg} {nn : BitVec 2}
    (h : i.shape = .aluShift op k rd nn rs) (s : State) : ShiftDone (exec i s) op k rd nn rs s := by
  have hrow := shift4Move_shift4Row k (s.reg rs) s.shiftBuf (shiftCount nn) (shiftCount_cases nn)
  have hrun : exec i s = .next ((withShiftBuf s (specShiftBuf k (s.reg rs) s.shiftBuf (shiftCount nn))).aluWrite op rd
      (s.reg rd) (specShiftY k (s.reg rs) s.shiftBuf (shiftCount nn))) := by
    rw [exec_eq_execShape, h, execShape, aluShift, hrow, shift4Out_shift4Row, shift4Buf_shift4Row,
      setShiftBuf_eq_withShiftBuf]
  rw [hrun]
  exact aluDone_next op (.core rd) _ _ _

/-! ### The statements -/

/-- Settles O12: every form answers the template R222 on its operands. -/
theorem registerAndImmediateAluForms : Obligations.RegisterAndImmediateAluForms := by
  intro rd rs im im16 s
  have im6 {i : Instr} {op} (h : i.shape = .aluIm6 op rd im) := exec_aluIm6_done h s
  have imm {i : Instr} {op} (h : i.shape = .aluIm16 op rd rs im16) := exec_aluIm16_done h s
  have reg {i : Instr} {op} (h : i.shape = .aluReg op rd rs) := exec_aluReg_done h s
  exact ⟨im6 rfl, im6 rfl, im6 rfl, im6 rfl, im6 rfl, im6 rfl, im6 rfl, im6 rfl, im6 rfl, im6 rfl, im6 rfl,
    imm rfl, imm rfl, imm rfl, imm rfl, imm rfl, imm rfl, imm rfl, imm rfl, imm rfl, imm rfl, imm rfl,
    reg rfl, reg rfl, reg rfl, reg rfl, reg rfl, reg rfl, reg rfl, reg rfl, reg rfl, reg rfl, reg rfl⟩

/-- Settles O13: the template runs on the word loaded from the address of the rule. -/
theorem memoryReadAluForms : Obligations.MemoryReadAluForms := by
  intro rd rs im a s
  have bp {i : Instr} {op} (h : i.shape = .aluBpIm6 op rd im) := exec_aluBpIm6_done h s
  have a6 {i : Instr} {op} (h : i.shape = .aluA6 op rd im) := exec_aluA6_done h s
  have a16 {i : Instr} {op} (h : i.shape = .aluA16 op false rd rs a) := exec_aluA16_load_done h s
  exact ⟨bp rfl, bp rfl, bp rfl, bp rfl, bp rfl, bp rfl, bp rfl, bp rfl, bp rfl, bp rfl, bp rfl,
    a6 rfl, a6 rfl, a6 rfl, a6 rfl, a6 rfl, a6 rfl, a6 rfl, a6 rfl, a6 rfl, a6 rfl, a6 rfl,
    a16 rfl, a16 rfl, a16 rfl, a16 rfl, a16 rfl, a16 rfl, a16 rfl, a16 rfl, a16 rfl, a16 rfl, a16 rfl⟩

/-- Settles O14: the W = 1 template, for two core registers and for two of R0 to R15. -/
theorem direct16WriteAluForms : Obligations.Direct16WriteAluForms := by
  intro rd rs ra rb a s hm
  have base {i : Instr} {op} (h : i.shape = .aluA16 op true rd rs a) := exec_aluA16_store_done h s hm
  have ext {i : Instr} {op} (h : i.shape = .extA16 op true ra rb a) := exec_extA16_store_done h s hm
  exact ⟨base rfl, base rfl, base rfl, base rfl, base rfl, base rfl, base rfl, base rfl, base rfl, base rfl,
    ext rfl, ext rfl, ext rfl, ext rfl, ext rfl, ext rfl, ext rfl, ext rfl, ext rfl, ext rfl⟩

/-- Settles O15: load, move of the pointer, template, on the pairs the spec does not refuse. -/
theorem indirectAluForms : Obligations.IndirectAluForms := by
  intro rd rs rx ry d m s
  refine ⟨fun hp => ?_, fun hp => ?_⟩
  · have base {i : Instr} {op} (h : i.shape = .aluInd op rd d m rs) := exec_aluInd_done h s hp
    exact ⟨base rfl, base rfl, base rfl, base rfl, base rfl, base rfl, base rfl, base rfl, base rfl, base rfl, base rfl⟩
  · have ext {i : Instr} {op} (h : i.shape = .extInd op rx d m ry) := exec_extInd_done h s hp
    exact ⟨ext rfl, ext rfl, ext rfl, ext rfl, ext rfl, ext rfl, ext rfl, ext rfl, ext rfl, ext rfl, ext rfl⟩

/-- Settles O19: in 2.0 `[BP+IM6]` lies in page 0; every other form is as on any version. -/
theorem extendedAluForms : Obligations.ExtendedAluForms := by
  intro ra rb rx im a s h20
  have hv : s.cfg.ver ≠ .v13 := by rw [h20]; exact Version.noConfusion
  have reg {i : Instr} {op} (h : i.shape = .extReg op ra rb) := exec_extReg_done h s
  have imm {i : Instr} {op} (h : i.shape = .extIm16 op ra rb a) := exec_extIm16_done h s
  have im6 {i : Instr} {op} (h : i.shape = .extIm6 op rx im) := exec_extIm6_done h s
  have bp {i : Instr} {op} (h : i.shape = .extBpIm6 op rx im) := exec_extBpIm6_done h s hv
  have a6 {i : Instr} {op} (h : i.shape = .extA6 op rx im) := exec_extA6_done h s
  have a16 {i : Instr} {op} (h : i.shape = .extA16 op false ra rb a) := exec_extA16_load_done h s
  exact ⟨reg rfl, reg rfl, reg rfl, reg rfl, reg rfl, reg rfl, reg rfl, reg rfl, reg rfl, reg rfl, reg rfl,
    imm rfl, imm rfl, imm rfl, imm rfl, imm rfl, imm rfl, imm rfl, imm rfl, imm rfl, imm rfl, imm rfl,
    im6 rfl, im6 rfl, im6 rfl, im6 rfl, im6 rfl, im6 rfl, im6 rfl, im6 rfl, im6 rfl, im6 rfl, im6 rfl,
    bp rfl, bp rfl, bp rfl, bp rfl, bp rfl, bp rfl, bp rfl, bp rfl, bp rfl, bp rfl, bp rfl,
    a6 rfl, a6 rfl, a6 rfl, a6 rfl, a6 rfl, a6 rfl, a6 rfl, a6 rfl, a6 rfl, a6 rfl, a6 rfl,
    a16 rfl, a16 rfl, a16 rfl, a16 rfl, a16 rfl, a16 rfl, a16 rfl, a16 rfl, a16 rfl, a16 rfl, a16 rfl⟩

/-- Settles O16: the template R222 on the shifted register, in the state whose shift buffer took the bits. -/
theorem shiftedRegisterAluForms : Obligations.ShiftedRegisterAluForms := by
  intro k rd rs nn s
  have sh {i : Instr} {op} (h : i.shape = .aluShift op k rd nn rs) := exec_aluShift_done h s
  exact ⟨sh rfl, sh rfl, sh rfl, sh rfl, sh rfl, sh rfl, sh rfl, sh rfl, sh rfl, sh rfl, sh rfl⟩

/-- Settles O17: R51's example is the template of ADD on the two operands. -/
theorem flagsExample : Obligations.FlagsExample := by
  intro s hbp
  have hx : s.reg .bp = 0x7FFF#16 := hbp
  obtain ⟨t, ht, heff⟩ := exec_aluReg_done (i := .addReg .bp .bp) rfl s
  obtain ⟨-, hres, -, -⟩ := heff
  obtain ⟨-, -, hreg, -⟩ := hres (by simp [AluCompares])
  obtain ⟨hval, hflags, -⟩ := hreg (by decide) (by decide)
  obtain ⟨hn, -, hs, hc, -, -⟩ := hflags
  rw [hx] at hval hn hs hc
  exact ⟨t, ht, hval, hs, hc, hn.trans (by simp [specResult])⟩

end Sys2Proof.Proofs

namespace Sys2Proof.Proofs

open Sys2Proof Sys2Proof.Machine Sys2Proof.Laws

/-! ### The pins that hold the core (R111, R490 to R493) -/

/-- The versions with the pins DMAQ, SLEEP, PD and HDUMPROM. -/
theorem hasHoldPins_iff (v : Version) : hasHoldPins v = true ↔ v = .v12 ∨ v = .v13 := by
  cases v <;> simp [hasHoldPins]

theorem step_of_stalled {s : State} (hr : s.pins.reset = false) (hs : s.stalled = true) : step s = .next s := by
  simp [step, hr, hs]

theorem step_of_dmaGranted {s : State} (hr : s.pins.reset = false) (hs : s.stalled = false)
    (hd : s.dmaGranted = true) : step s = .next { s.dmaPoint with dmack := true } := by
  simp [step, hr, hs, hd]

/-- Settles O9: the two clauses are the second and the third branch of the step. -/
theorem holdingPins : Obligations.HoldingPins := by
  intro s hv hr
  have hpins : hasHoldPins s.cfg.ver = true := (hasHoldPins_iff _).2 hv
  refine ⟨fun hheld => step_of_stalled hr ?_, fun hsleep hpd hdump hdmaq => step_of_dmaGranted hr ?_ ?_⟩
  · simpa [State.stalled, hpins, or_assoc] using hheld
  · simp [State.stalled, hsleep, hpd, hdump]
  · simp [State.dmaGranted, hpins, hdmaq]

/-! ### STORE (R171, R416) -/

/-- Settles O21: each form is the shared store at its own address. -/
theorem storeForms : Obligations.StoreForms := by
  intro rd rs im a ra rb rx s hm
  have bp (v : Word) : StoreDone (storeAt (bpEa s im) v s) (specBpEa s im) v s :=
    bpEa_eq_specBpEa s im ▸ storeAt_done s (bpEa s im) v hm
  have a6 (v : Word) : StoreDone (storeAt (a6Ea im) v s) (BitVec.ofNat 22 im.toNat) v s :=
    a6Ea_eq_ofNat im ▸ storeAt_done s (a6Ea im) v hm
  have a16 (v : Word) : StoreDone (storeAt (a16Ea a) v s) (mkAddr 0 a) v s := storeAt_done s (a16Ea a) v hm
  exact ⟨bp _, a6 _, a16 _, bp _, a6 _, a16 _⟩

/-- A register write and a store do not meet, so their order does not show. -/
theorem setGreg_storeWord (s : State) (g : GReg) (w : Word) (a : Addr) (v : Word) :
    (s.storeWord a v).setGreg g w = (s.setGreg g w).storeWord a v := by
  cases g with
  | core r =>
    cases r with
    | r1 | r2 | r3 | r4 =>
      have hb : (s.storeWord a v).bank = s.bank := rfl
      simp only [State.setGreg, State.setReg, hb]
      split <;> rfl
    | sp | bp | sr | pc => rfl
  | ext x => cases x <;> rfl

/-- Nor does the order of a pointer update and a store. -/
theorem ptrCommit_storeWord (s : State) (d : Bool) (m : PtrMode) (g : GReg) (a : Addr) (v : Word) :
    ptrCommit (s.storeWord a v) d m g = (ptrCommit s d m g).storeWord a v := by
  have hnew : ptrNew (s.storeWord a v) d m ((s.storeWord a v).greg g) = ptrNew s d m (s.greg g) := by
    rw [storeWord_greg]; rfl
  have hwide : ptrWide (s.storeWord a v) d = ptrWide s d := rfl
  unfold ptrCommit
  dsimp only
  rw [hnew, hwide, setGreg_storeWord]
  split
  · rfl
  · split <;> rfl

/-- A store through a pointer is the store in the state whose pointer has moved; only `[++Rs]` reads Rd there. -/
theorem storeVia_eq (s : State) (d : Bool) (m : PtrMode) (p g : GReg) :
    storeVia d m p g s = storing s [ptrEa s d m (s.greg p)] ((ptrCommit s d m p).storeWord (ptrEa s d m (s.greg p))
      (if m = .preInc then (ptrCommit s d m p).greg g else s.greg g)) := by
  unfold storeVia
  dsimp only
  split
  · rfl
  · rw [ptrCommit_storeWord]

/-- Which words are fetched ahead depends on the version and `{CS, PC}` alone. -/
theorem ahead_congr {s t : State} (hcfg : t.cfg = s.cfg) (hpc : t.nextPc = s.nextPc) (a : Addr) :
    Ahead t a ↔ Ahead s a := by
  unfold Ahead
  rw [hcfg, hpc]

/-- A pointer update leaves `{CS, PC}`. -/
theorem nextPc_of_pointerMoved {d : Bool} {m : PtrMode} {g : GReg} {s t : State} (h : PointerMoved d m g s t) :
    t.nextPc = s.nextPc := by
  obtain ⟨-, hstatus, -, hpc, -, -⟩ := h
  unfold State.nextPc
  rw [hstatus, hpc]

theorem storeVia_done (s : State) (d : Bool) (m : PtrMode) (p g : GReg) (hm : Memory.wf s.mem = true)
    (hp : PointerFree m g p) : StoreIndDone (storeVia d m p g s) g d m p s := by
  have hmoved := ptrCommit_moved s d m p (pointerFree_notSpecial hp)
  refine ⟨ptrCommit s d m p, hmoved, ?_⟩
  have hahead := ahead_congr (ptrCommit_cfg s d m p) (nextPc_of_pointerMoved hmoved)
  have hwf : Memory.wf (ptrCommit s d m p).mem = true := by rw [ptrCommit_mem]; exact hm
  rw [storeVia_eq, ← ptrEa_eq]
  unfold StoreDone UnlessAhead
  rw [hahead]
  exact storing_unlessAhead s _ _ _ fun e => ⟨_, e, storeWord_stored _ _ _ hwf, rfl, rfl,
    fun q _ _ => storeWord_greg _ _ _ q, storeWord_sysSame _ _ _⟩

/-- Settles O22: the operand pairs the spec lets pass go through the shared store. -/
theorem indirectStoreForms : Obligations.IndirectStoreForms := by
  intro rd rs rx ry d m s hm
  refine ⟨fun hp => ?_, fun hp => ?_⟩
  · have hrun : exec (.storeInd rd d m rs) s = storeVia d m (.core rs) (.core rd) s :=
      if_neg (by rw [ptrConflict_of_pointerFree hp]; exact Bool.false_ne_true)
    rw [hrun]
    exact storeVia_done s d m _ _ hm hp
  · have hfree : ¬ (m ≠ .keep ∧ rx = ry) := by
      rintro ⟨hm, rfl⟩
      exact (hp.resolve_left hm).1 rfl
    have hrun : exec (.extStoreInd rx d m ry) s = storeVia d m (.ext ry) (.ext rx) s := if_neg hfree
    rw [hrun]
    exact storeVia_done s d m _ _ hm hp

/-! ### Bit operations on memory (R290 to R297) -/

/-- The new word of R290, bit by bit. -/
theorem bitResult_changed (op : BitOp) (k : BitVec 4) (w : Word) : BitChanged op k w (bitResult op w k) := by
  intro j hj
  have hk : k.toNat < 16 := k.isLt
  have hmask : (1#16 <<< k.toNat).getLsbD j = decide (j = k.toNat) := by
    rw [BitVec.getLsbD_shiftLeft, BitVec.getLsbD_one, Bool.eq_iff_iff]
    simp only [Bool.and_eq_true, Bool.not_eq_true', decide_eq_true_eq, decide_eq_false_iff_not]
    omega
  cases op with
  | tst => simp [bitResult, specBit]
  | set =>
    rw [bitResult, BitVec.getLsbD_or, hmask]
    by_cases h : j = k.toNat <;> simp [specBit, h]
  | clr =>
    rw [bitResult, BitVec.getLsbD_and, BitVec.getLsbD_not, hmask]
    by_cases h : j = k.toNat <;> simp [specBit, h, hj]
  | inv =>
    rw [bitResult, BitVec.getLsbD_xor, hmask]
    by_cases h : j = k.toNat <;> simp [specBit, h]

/-- k of the forms with a register. -/
theorem bitIndex_eq (s : State) (rs : Reg) : bitIndex s rs = BitVec.ofNat 4 (s.reg rs).toNat := by
  apply BitVec.eq_of_toNat_eq
  simp [bitIndex]

/-- Z from the old bit. -/
theorem setZOfBit_status (s : State) (w : Word) (k : BitVec 4) : (s.setZOfBit w k).status = statusZ s.status w k := by
  unfold State.setZOfBit statusZ
  cases w.getLsbD k.toNat <;> rfl

/-- A bit operation on memory: load and Z, and but for TSTB a store of the changed word (R290). -/
theorem bitMem_done (op : BitOp) (ea : Addr) (k : BitVec 4) (s : State) (hm : Memory.wf s.mem = true) :
    BitMemDone (bitMem op ea k s) op ea k s := by
  have hregs : RegsSame s ((s.load ea).2.setZOfBit (s.load ea).1 k) := fun q hq _ =>
    (status_greg _ _ q hq).trans (load_greg s ea q)
  have hstatus : ((s.load ea).2.setZOfBit (s.load ea).1 k).status = statusZ s.status (s.load ea).1 k :=
    setZOfBit_status _ _ _
  have hsys : SysSame s ((s.load ea).2.setZOfBit (s.load ea).1 k) := load_sysSame s ea
  refine ⟨fun hop => ?_, fun hop => ?_⟩
  · exact ⟨_, if_pos hop, memSame_refl _, hstatus, hregs, rfl, hsys⟩
  · have hrun : bitMem op ea k s = storing s [ea] (((s.load ea).2.setZOfBit (s.load ea).1 k).storeWord ea
        (bitResult op (s.load ea).1 k)) := if_neg hop
    rw [hrun]
    refine storing_unlessAhead s ea _ _ fun e => ⟨_, _, e, bitResult_changed op k _,
      storeWord_stored _ ea _ (load_wf s ea hm), hstatus, fun q hsr hpc => ?_, rfl, sysSame_trans hsys
        (storeWord_sysSame _ _ _)⟩
    exact (storeWord_greg _ _ _ q).trans (hregs q hsr hpc)

/-- Settles O28: every form is the shared bit operation at its own address and index. -/
theorem bitMemoryForms : Obligations.BitMemoryForms := by
  intro rd rs d k a s hm
  have off (op : BitOp) := bitMem_done op (bitEa s d rd) k s hm
  have idx (op : BitOp) := bitIndex_eq s rs ▸ bitMem_done op (bitEa s d rd) (bitIndex s rs) s hm
  have a16 (op : BitOp) := bitMem_done op (mkAddr (dataPage s d) a) k s hm
  exact ⟨off .tst, off .set, off .clr, off .inv, idx .tst, idx .set, idx .clr, idx .inv,
    a16 .tst, a16 .set, a16 .clr, a16 .inv, a16⟩

/-! ### PUSH (R172, R417)

`pushRegs_pushed` says what a list of pushes leaves; here the list is the set of the instruction, from the top down. -/

theorem length_coreRange (lo n : Nat) : (coreRange lo n).length = n := by
  induction n generalizing lo with
  | zero => rfl
  | succ n ih => exact congrArg Nat.succ (ih (lo + 1))

theorem length_extRange (lo n : Nat) : (extRange lo n).length = n := by
  induction n generalizing lo with
  | zero => rfl
  | succ n ih => exact congrArg Nat.succ (ih (lo + 1))

theorem getElem_coreRange (lo n i : Nat) (h : i < (coreRange lo n).length) :
    (coreRange lo n)[i] = .core (Reg.ofNum (BitVec.ofNat 3 (lo + i))) := by
  induction n generalizing lo i with
  | zero => exact absurd h (Nat.not_lt_zero i)
  | succ n ih =>
    cases i with
    | zero => rfl
    | succ i =>
      simp only [coreRange, List.getElem_cons_succ]
      rw [ih, Nat.add_right_comm, Nat.add_assoc]

theorem getElem_extRange (lo n i : Nat) (h : i < (extRange lo n).length) :
    (extRange lo n)[i] = .ext (XReg.ofNum (BitVec.ofNat 3 (lo + i))) := by
  induction n generalizing lo i with
  | zero => exact absurd h (Nat.not_lt_zero i)
  | succ n ih =>
    cases i with
    | zero => rfl
    | succ i =>
      simp only [extRange, List.getElem_cons_succ]
      rw [ih, Nat.add_right_comm, Nat.add_assoc]

/-- The number of the `i`-th register pushed, the highest one being `h` and the last one `h + 1 - n`. -/
theorem ofNat_pushed_eq_ofInt {h n i : Nat} (hn : n ≤ h + 1) (hi : i < n) :
    BitVec.ofNat 3 (h + 1 - n + (n - 1 - i)) = BitVec.ofInt 3 ((h : Int) - i) := by
  rw [show h + 1 - n + (n - 1 - i) = h - i by omega, ← BitVec.ofInt_natCast, Int.ofNat_sub (by omega)]

/-- The registers of a PUSH in the order they are stored (R172). -/
theorem getElem_pushSet_reverse (rd : Reg) (n : BitVec 3) (hn : n.toNat ≤ rd.num.toNat + 1) (i : Nat)
    (h : i < (pushSet rd n).reverse.length) : (pushSet rd n).reverse[i] = regPlus rd (-i) := by
  have hi : i < n.toNat := by simpa [pushSet, length_coreRange] using h
  rw [List.getElem_reverse]
  simp only [pushSet, getElem_coreRange, length_coreRange, regPlus, ofNat_pushed_eq_ofInt hn hi, Int.sub_eq_add_neg]

/-- The registers of an ext PUSH in the order they are stored (R417). -/
theorem getElem_extPushSet_reverse (rx : XReg) (n : BitVec 3) (hn : n.toNat ≤ rx.num.toNat + 1) (i : Nat)
    (h : i < (extPushSet rx n).reverse.length) : (extPushSet rx n).reverse[i] = xregAt (rx.num.toNat - i) := by
  have hi : i < n.toNat := by simpa [extPushSet, length_extRange] using h
  rw [List.getElem_reverse]
  simp only [extPushSet, getElem_extRange, length_extRange, xregAt, ofNat_pushed_eq_ofInt hn hi]

/-- The addresses of the words pushed are those along the stack. -/
theorem mem_stackAddrsFrom (s : State) (g : GReg) (a : Addr) (i n : Nat) :
    a ∈ s.stackAddrsFrom g i n ↔ ∃ j : Nat, i ≤ j ∧ j < i + n ∧ a = stackDown s g j := by
  induction n generalizing i with
  | zero => simp [State.stackAddrsFrom]; omega
  | succ n ih =>
    have hhead : (if s.cfg.ver = .v13 then s.stackAddr g - BitVec.ofNat 22 i
        else mkAddr 0 (s.greg g - BitVec.ofNat 16 i)) = stackDown s g i := by
      unfold stackDown State.stackAddr State.stackPage
      split <;> rfl
    rw [State.stackAddrsFrom, hhead, List.mem_cons, ih]
    constructor
    · rintro (rfl | ⟨j, h1, h2, rfl⟩)
      · exact ⟨i, le_rfl, by omega, rfl⟩
      · exact ⟨j, by omega, by omega, rfl⟩
    · rintro ⟨j, h1, h2, rfl⟩
      rcases Nat.eq_or_lt_of_le h1 with rfl | h
      · exact .inl rfl
      · exact .inr ⟨j, h, by omega, rfl⟩

/-- An instruction that pushes `n` words stops in [2.0] just where one of them is fetched ahead. -/
theorem stackAhead_iff (s : State) (g : GReg) (n : Nat) : StackAhead g n s ↔ ∃ a ∈ s.stackAddrs g n, Ahead s a := by
  unfold StackAhead State.stackAddrs
  constructor
  · rintro ⟨i, hi, h⟩
    exact ⟨_, (mem_stackAddrsFrom s g _ 0 n).2 ⟨i, by omega, by omega, rfl⟩, h⟩
  · rintro ⟨a, ha, h⟩
    obtain ⟨j, -, hj, rfl⟩ := (mem_stackAddrsFrom s g a 0 n).1 ha
    exact ⟨j, by omega, h⟩

theorem storing_stack_next {s : State} {g : GReg} {n : Nat} (h : ¬ StackAhead g n s) (t : State) :
    storing s (s.stackAddrs g n) t = .next t :=
  storing_next s _ t fun a ha e => h ((stackAhead_iff s g n).2 ⟨a, ha, e⟩)

theorem storing_stack_refused {s : State} {g : GReg} {n : Nat} (h : StackAhead g n s) (t : State) :
    storing s (s.stackAddrs g n) t = .refused .storeAhead := by
  obtain ⟨a, ha, e⟩ := (stackAhead_iff s g n).1 h
  exact storing_refused s _ t a ha e

/-- A pointer that is none of the registers pushed is not in their list. -/
theorem notMem_of_getElem_ne {g : GReg} {l : List GReg} {q : Nat → GReg}
    (hq : ∀ i : Nat, (h : i < l.length) → l[i] = q i) (hg : ∀ i : Nat, i < l.length → g ≠ q i) : g ∉ l := by
  intro hmem
  obtain ⟨i, hi, e⟩ := List.mem_iff_getElem.mp hmem
  exact hg i hi (e.symm.trans (hq i hi))

/-- PUSH of a list whose `i`-th register is `q i`. -/
theorem pushList_done (g : GReg) (l : List GReg) (n : Nat) (q : Nat → GReg) (s : State) (hm : Memory.wf s.mem = true)
    (hlen : l.length = n) (hn : n < 65536) (hq : ∀ i : Nat, (h : i < l.length) → l[i] = q i)
    (hg : ∀ i : Nat, i < n → g ≠ q i) : PushDone (pushList g l s) g n q s := by
  subst hlen
  obtain ⟨hword, hmem, hdown, hregs, hstatus, hpc, hcore, hsb, -, -⟩ :=
    pushRegs_pushed g l s hm hn (notMem_of_getElem_ne hq hg)
  refine ⟨fun h => ⟨_, storing_stack_next h _, fun i hi k => ?_, hmem, hdown, fun r hr _ _ => hregs r hr, hstatus, hpc,
    hcore, hsb⟩, fun h => storing_stack_refused h _⟩
  rw [hword i hi k, hq i hi]

/-- A register set of the instruction word has at most seven registers, fewer than words along the stack. -/
theorem toNat_lt_words (n : BitVec 3) : n.toNat < 65536 := n.isLt.trans (by decide)

theorem exec_push_done (rd rs : Reg) (n : BitVec 3) (s : State) (hm : Memory.wf s.mem = true) (h0 : n ≠ 0#3)
    (hn : n.toNat ≤ rd.num.toNat + 1) (hg : ∀ i : Nat, i < n.toNat → GReg.core rs ≠ regPlus rd (-i)) :
    PushDone (exec (.push rd n rs) s) (.core rs) n.toNat (fun i => regPlus rd (-i)) s := by
  have hlen : (pushSet rd n).reverse.length = n.toNat := by rw [List.length_reverse, pushSet, length_coreRange]
  have hget := getElem_pushSet_reverse rd n hn
  have hfree : GReg.core rs ∉ pushSet rd n := fun h =>
    notMem_of_getElem_ne hget (fun i hi => hg i (hlen ▸ hi)) (List.mem_reverse.2 h)
  have hrun : exec (.push rd n rs) s = pushList (.core rs) (pushSet rd n).reverse s :=
    (if_neg (not_or.2 ⟨h0, Nat.not_lt.2 hn⟩)).trans (if_neg hfree)
  rw [hrun]
  exact pushList_done _ _ _ _ s hm hlen (toNat_lt_words n) hget hg

theorem exec_extPush_done (rx : XReg) (rb : GReg) (n : BitVec 3) (s : State) (hm : Memory.wf s.mem = true)
    (h0 : n ≠ 0#3) (hn : n.toNat ≤ rx.num.toNat + 1) (hg : ∀ i : Nat, i < n.toNat → rb ≠ xregAt (rx.num.toNat - i)) :
    PushDone (exec (.extPush n rx rb) s) rb n.toNat (fun i => xregAt (rx.num.toNat - i)) s := by
  have hlen : (extPushSet rx n).reverse.length = n.toNat := by rw [List.length_reverse, extPushSet, length_extRange]
  have hget := getElem_extPushSet_reverse rx n hn
  have hfree : rb ∉ extPushSet rx n := fun h =>
    notMem_of_getElem_ne hget (fun i hi => hg i (hlen ▸ hi)) (List.mem_reverse.2 h)
  have hrun : exec (.extPush n rx rb) s = pushList rb (extPushSet rx n).reverse s :=
    (if_neg (not_or.2 ⟨h0, Nat.not_lt.2 hn⟩)).trans (if_neg hfree)
  rw [hrun]
  exact pushList_done _ _ _ _ s hm hlen (toNat_lt_words n) hget hg

/-- Settles O23: both forms are the list of pushes, the highest register first. -/
theorem pushStoresDownwards : Obligations.PushStoresDownwards := by
  intro rd rs rx rb n s hm h0
  exact ⟨exec_push_done rd rs n s hm h0, exec_extPush_done rx rb n s hm h0⟩

/-! ### The return state (R330) -/

/-- The return state is a PUSH of PC and SR through SP. -/
theorem pushReturn_eq_pushRegs (s : State) : s.pushReturn = pushRegs (.core .sp) [.core .pc, .core .sr] s := by
  have hsr : (s.pushVia (.core .sp) s.pc).greg (.core .sr) = s.srWord := pushVia_greg_other s _ _ _ (by decide)
  show _ = (s.pushVia (.core .sp) s.pc).pushVia (.core .sp) ((s.pushVia (.core .sp) s.pc).greg (.core .sr))
  rw [hsr]
  rfl

theorem pushReturn_pushed (s : State) (hm : Memory.wf s.mem = true) :
    PushedList (.core .sp) [.core .pc, .core .sr] s s.pushReturn := by
  rw [pushReturn_eq_pushRegs]
  exact pushRegs_pushed _ _ s hm (by decide) (by decide)

theorem pushReturn_status (s : State) : s.pushReturn.status = s.status := by
  have hsp : GReg.core .sp ≠ .core .sr := by decide
  exact (pushVia_status _ _ _ hsp).trans (pushVia_status _ _ _ hsp)

theorem pushReturn_core (s : State) : CoreSame s s.pushReturn ∧ s.pushReturn.sb = s.sb := by
  obtain ⟨hcore1, hsb1⟩ := pushVia_core s (.core .sp) s.pc
  obtain ⟨hcore2, hsb2⟩ := pushVia_core (s.pushVia (.core .sp) s.pc) (.core .sp) s.srWord
  exact ⟨coreSame_trans hcore1 hcore2, hsb2.trans hsb1⟩

theorem pushReturn_laterOn (s : State) : LaterOn s s.pushReturn :=
  laterOn_trans (pushVia_laterOn _ _ _) (pushVia_laterOn _ _ _)

theorem pushReturn_saved (s : State) (hm : Memory.wf s.mem = true) : ReturnStateSaved none s s.pushReturn := by
  obtain ⟨hword, hmem, hdown, hregs, -⟩ := pushReturn_pushed s hm
  exact ⟨hword 0 (by decide), hword 1 (by decide), fun w h => by simp at h, hmem, hdown, fun q hq _ _ => hregs q hq⟩

/-- A saved return state stays saved where the core stores no more: the stack pointer and the registers are kept, and
memory but for what DMA writes. -/
theorem returnStateSaved_later {fr : Option Word} {s u t : State} (h : ReturnStateSaved fr s u) (hl : LaterOn s u)
    (hword : ∀ a : Addr, Steady u a → t.readWord a = u.readWord a) (hmem : MemSameBarDma u t) (hregs : RegsSame u t)
    (hss : t.ss = u.ss) : ReturnStateSaved fr s t := by
  obtain ⟨h0, h1, h2, hbytes, hdown, hsame⟩ := h
  have keep {a : Addr} (k : Kept s a) : t.readWord a = u.readWord a := hword a (Kept.steady (Kept.later hl k))
  refine ⟨fun k => (keep k).trans (h0 k), fun k => (keep k).trans (h1 k), fun w hw k => (keep k).trans (h2 w hw k),
    fun b hb hd => (hmem b (fun e => hd (hl.2 _ e))).trans (hbytes b hb hd), ⟨?_, hss.trans hdown.2⟩,
    fun q hq hsr hpc => (hregs q hsr hpc).trans (hsame q hq hsr hpc)⟩
  exact (hregs _ (by decide) (by decide)).trans hdown.1

/-! ### CALL (R331, R332) -/

theorem jump_onlyJumped (s : State) (a : Addr) : OnlyJumped s (s.jump a) :=
  ⟨⟨rfl, rfl, rfl, rfl, rfl⟩, fun q hsr hpc => by
    cases q with
    | core r =>
      cases r with
      | sr => exact absurd rfl hsr
      | pc => exact absurd rfl hpc
      | sp | r1 | r2 | r3 | r4 | bp => rfl
    | ext x => cases x <;> rfl, memSame_refl s, sysSame_refl s⟩

/-- The return state is on the stack and only CS and PC are set. -/
def CalledTo (a : Addr) (s t : State) : Prop :=
  t.nextPc = a ∧ ReturnStateSaved none s t ∧ FlagsAndDsSame s t ∧ CoreSame s t ∧ t.sb = s.sb

theorem pushReturn_jump_calledTo (a : Addr) (s : State) (hm : Memory.wf s.mem = true) :
    CalledTo a s (s.pushReturn.jump a) := by
  obtain ⟨hflags, hregs, ⟨hbytes, -, -⟩, hcore, hss, hsb⟩ := jump_onlyJumped s.pushReturn a
  have hpush := pushReturn_core s
  refine ⟨jump_nextPc _ _, ?_, ?_, coreSame_trans hpush.1 hcore, hsb.trans hpush.2⟩
  · exact returnStateSaved_later (pushReturn_saved s hm) (pushReturn_laterOn s) (fun _ _ => rfl) (fun k _ => hbytes k)
      hregs hss
  · unfold FlagsAndDsSame at hflags ⊢
    rwa [pushReturn_status] at hflags

theorem callTo_done (a : Addr) (s : State) (hm : Memory.wf s.mem = true) (h : ¬ StackAhead (.core .sp) 2 s) :
    ∃ t : State, callTo a s = .next t ∧ CalledTo a s t :=
  ⟨_, storing_stack_next h _, pushReturn_jump_calledTo a s hm⟩

/-- The target of CALL MR as a number. -/
theorem mrTarget_toNat (s : State) : (mrTarget s).toNat = (s.reg .r4).toNat % 64 * 65536 + (s.reg .r3).toNat := by
  rw [mrTarget, mkAddr_toNat, BitVec.extractLsb'_toNat]
  rfl

/-- Settles O51: both calls are the shared one, at their own targets. -/
theorem callSavesReturnState : Obligations.CallSavesReturnState := by
  intro hi lo s hm
  refine ⟨fun h => ⟨callTo_done (mkAddr hi lo) s hm h, ?_⟩,
    fun h => ⟨storing_stack_refused h _, storing_stack_refused h _⟩⟩
  obtain ⟨t, hrun, hpc, hrest⟩ := callTo_done (mrTarget s) s hm h
  exact ⟨t, hrun, (congrArg BitVec.toNat hpc).trans (mrTarget_toNat s), hrest⟩

/-! ### Going through a vector (R351, R453, R454) -/

/-- The end of an entry: the vector word is loaded, FR and SVC take their values, and the core goes to `{0, word}`. -/
def throughVector (slot : BitVec 4) (fl : FlagReg) (svc : List Level) (u : State) : State :=
  let v := u.load (vectorAddr u.cfg slot)
  ({ v.2 with flags := fl, svc := svc } : State).jump (mkAddr 0 v.1)

/-- An entry that saves PC and SR alone ends so. -/
theorem enter_eq_throughVector {e : Event} {s : State} (hade : e ≠ .ade) (hfr : s.pushReturn.savesFr e = false) :
    s.enter e = throughVector e.slot (s.pushReturn.entryFlags e) (s.pushReturn.entrySvc e) s.pushReturn := by
  simp only [State.enter, State.markAde, hade, if_false, hfr, Bool.false_eq_true]
  rfl

section ThroughVector

variable (slot : BitVec 4) (fl : FlagReg) (svc : List Level) (u : State)

/-- The read of the vector shows to a device alone. -/
theorem throughVector_readWord (a : Addr) (h : Steady u a) : (throughVector slot fl svc u).readWord a = u.readWord a :=
  (readWord_congr (s := u.dmaPoint) (t := throughVector slot fl svc u) a rfl h.1 (fun _ _ => rfl)).trans
    (dmaPoint_readWord u a h)

theorem throughVector_memSameBarDma : MemSameBarDma u (throughVector slot fl svc u) :=
  fun k hk => load_byte u (vectorAddr u.cfg slot) k hk

theorem throughVector_regsSame (hb : fl.bnk = u.flags.bnk) : RegsSame u (throughVector slot fl svc u) := by
  intro q hsr hpc
  cases q with
  | core r =>
    cases r with
    | sr => exact absurd rfl hsr
    | pc => exact absurd rfl hpc
    | sp | bp => rfl
    | r1 | r2 | r3 | r4 => simp only [State.greg, State.reg, State.bank, throughVector, State.jump, hb]; rfl
  | ext x => cases x <;> rfl

/-- The handler's address is the vector word as the entry read it. -/
theorem throughVector_atVector : AtVector slot u (throughVector slot fl svc u) := by
  have hpc : (throughVector slot fl svc u).pc = u.dmaPoint.readWord (vectorAddr u.cfg slot) :=
    offsetOf_mkAddr 0 _
  refine ⟨pageOf_mkAddr 0 _, fun hd => hpc.trans ?_, fun hd => ⟨u.dmaPoint.devLog, ?_, hpc.trans ?_⟩⟩
  · exact (readWord_congr (s := u.dmaPoint) (t := throughVector slot fl svc u) _ rfl hd (fun _ _ => rfl)).symm
  · exact congrArg Bus.devLog (if_pos hd)
  · unfold State.readWord
    rw [dmaPoint_cfg, hd]

end ThroughVector

/-- The vector's address depends on the parameters alone. -/
theorem atVector_congr {slot : BitVec 4} {s u t : State} (hcfg : u.cfg = s.cfg) (h : AtVector slot u t) :
    AtVector slot s t := by
  unfold AtVector at h ⊢
  rwa [hcfg] at h

/-! ### BREAK (R351) -/

/-- Settles O55: BREAK pushes the return state and goes through slot 5, with FR as it is. -/
theorem breakEnters : Obligations.BreakEnters := by
  intro s hm
  refine ⟨fun h => ⟨s.enter .brk, storing_stack_next h _, ?_⟩, fun h => storing_stack_refused h _⟩
  have hcore := pushReturn_core s
  have hstatus := pushReturn_status s
  have hlater := pushReturn_laterOn s
  have hsaved := pushReturn_saved s hm
  rw [enter_eq_throughVector (by decide) rfl]
  simp only [State.entryFlags, State.entrySvc, Event.slot]
  generalize s.pushReturn = u at hcore hstatus hlater hsaved ⊢
  obtain ⟨⟨hcfg, hpins, hfl, hmds, hsvc, hdmack, hhold, hfree, hbank⟩, hsb⟩ := hcore
  refine ⟨?_, atVector_congr hcfg (throughVector_atVector _ _ _ u), ?_, hfl, ?_, hsb, hmds, hcfg, hbank, hpins, hdmack,
    hhold, hfree⟩
  · exact returnStateSaved_later hsaved hlater (throughVector_readWord _ _ _ u) (throughVector_memSameBarDma _ _ _ u)
      (throughVector_regsSame _ _ _ u rfl) rfl
  · rw [FlagsAndDsSame, ← hstatus]
    exact ⟨rfl, rfl, rfl, rfl, rfl⟩
  · show (if u.cfg.ver.is12Plus then Level.brk :: u.svc else u.svc) = _
    rw [hcfg, hsvc]

/-! ### The meaning of one access (R70, R96, R98, R100, R111) -/

/-- The word of a byte address. -/
theorem wordOf_eq_ofNat (e : BitVec 23) : wordOf e = BitVec.ofNat 22 (e.toNat / 2) := by
  apply BitVec.eq_of_toNat_eq
  have he := e.isLt
  simp only [wordOf, BitVec.extractLsb'_toNat, Nat.shiftRight_eq_div_pow, BitVec.toNat_ofNat, pow_one]

/-- Bit 0 of a byte address. -/
theorem getLsbD_zero_eq_odd (e : BitVec 23) : e.getLsbD 0 = decide (e.toNat % 2 = 1) := by
  simp [BitVec.getLsbD, Nat.testBit_zero]

/-- A word is its two bytes: bit 0 of the byte address selects the half (R96). -/
theorem readWord_eq_bytes (s : State) (a : Addr) : s.readWord a = s.readByte (a ++ 1#1) ++ s.readByte (a ++ 0#1) := by
  have hword (b : BitVec 1) : wordOf (a ++ b) = a := by
    apply BitVec.eq_of_toNat_eq
    have hb := b.isLt
    have ha := a.isLt
    rw [wordOf_eq_ofNat, append_toNat_eq, BitVec.toNat_ofNat]
    omega
  have hbit (b : BitVec 1) : (a ++ b).getLsbD 0 = b.getLsbD 0 := by rw [BitVec.getLsbD_append]; rfl
  have hhalves (w : Word) : w = w.extractLsb' 8 8 ++ w.extractLsb' 0 8 := by
    have hjoin := BitVec.extractLsb'_append_extractLsb'_eq_extractLsb' (x := w) (show 8 = 0 + 8 from rfl) (len₂ := 8)
    exact (hjoin.trans BitVec.extractLsb'_eq_self).symm
  unfold State.readByte
  rw [hbit, hbit, hword, hword]
  exact hhalves _

/-- What a read gives, by what backs the address (R100). -/
theorem readWord_of_mem {s : State} {a : Addr} (h : s.cfg.backing a = .ram ∨ s.cfg.backing a = .rom) :
    s.readWord a = Memory.readByte s.mem (2 * a.toNat + 1) ++ Memory.readByte s.mem (2 * a.toNat) := by
  unfold State.readWord
  rcases h with h | h <;> rw [h] <;> rfl

theorem readWord_of_unbacked {s : State} {a : Addr} {w : Word} (h : s.cfg.backing a = .unbacked w) :
    s.readWord a = w := by
  unfold State.readWord
  rw [h]

theorem readWord_of_device {s : State} {a : Addr} (h : s.cfg.backing a = .device) :
    s.readWord a = Config.deviceRead s.devLog a := by
  unfold State.readWord
  rw [h]

/-- A read shows to a device alone (R113). -/
theorem noteRead_eq (s : State) (a : Addr) : s.noteRead a =
    { s with devLog := if s.cfg.backing a = .device then .read a :: s.devLog else s.devLog } := by
  unfold State.noteRead Bus.noteRead State.bus
  split <;> rfl

/-- The byte a byte write leaves, read as the core reads it (R96). -/
theorem readByte_of_ram {s : State} {e : BitVec 23} (h : s.cfg.backing (wordOf e) = .ram) :
    s.readByte e = Memory.readByte s.mem e.toNat := by
  have haddr : (wordOf e).toNat = e.toNat / 2 := by
    have he := e.isLt
    rw [wordOf_eq_ofNat, BitVec.toNat_ofNat]
    omega
  unfold State.readByte
  rw [readWord_of_mem (.inl h), getLsbD_zero_eq_odd, haddr, BitVec.extractLsb'_append_eq_left,
    BitVec.extractLsb'_append_eq_right]
  by_cases hodd : e.toNat % 2 = 1
  · rw [if_pos (by simpa using hodd), show 2 * (e.toNat / 2) + 1 = e.toNat by omega]
  · rw [if_neg (by simpa using hodd), show 2 * (e.toNat / 2) = e.toNat by omega]

/-- A byte put on the bus is the byte R96 and R100 describe. -/
theorem putByte_stored (s : State) (e : BitVec 23) (v : BitVec 8) (h : Memory.wf s.mem = true) :
    StoredByte e v s (s.putByte e v) := by
  unfold StoredByte
  rw [← wordOf_eq_ofNat]
  cases hb : s.cfg.backing (wordOf e) with
  | ram =>
    have hput : s.putByte e v = { s with mem := Memory.writeByte s.mem e.toNat v } := by
      simp only [State.putByte, Bus.writeByte, hb]
      rfl
    have hram : (s.putByte e v).cfg.backing (wordOf e) = .ram := hb
    refine ⟨fun k hk => ?_, rfl, fun _ => ⟨?_, ?_⟩, fun h => by simp at h, fun h => absurd rfl h⟩
    · rw [hput]
      exact readByte_writeByte_other _ _ _ _ hk
    · rw [readByte_of_ram hram, hput]
      exact readByte_writeByte_same _ 0 _ _ h
    · rw [hput]
  | device =>
    have hput : s.putByte e v = { s with devLog := .writeByte e v :: s.devLog } := by
      simp only [State.putByte, Bus.writeByte, hb]
      rfl
    rw [hput]
    exact ⟨fun k _ => rfl, rfl, fun h => by simp at h, fun _ => ⟨rfl, rfl⟩, fun _ h => absurd rfl h⟩
  | rom | unbacked w =>
    have hput : s.putByte e v = s := by
      simp only [State.putByte, Bus.writeByte, hb]
      rfl
    rw [hput]
    exact ⟨fun k _ => rfl, rfl, fun h => by simp at h, fun h => by simp at h, fun _ _ => ⟨rfl, rfl⟩⟩

/-! ### The DMA master's turn, access by access (R111, R490) -/

/-- Without DMA the turn is empty. -/
theorem dmaPoint_of_noDma {s : State} (h : ¬ (s.cfg.ver = .v12 ∨ s.cfg.ver = .v13)) : s.dmaPoint = s := by
  have hpins : hasHoldPins s.cfg.ver = false := by
    rw [← Bool.not_eq_true, hasHoldPins_iff]
    exact h
  simp only [State.dmaPoint, State.dmaNow, hpins, Bool.false_eq_true, if_false]
  rfl

theorem dmaPoint_of_idle {s : State} (h : s.dma = []) : s.dmaPoint = s := by
  obtain ⟨⟩ := s
  subst h
  simp [State.dmaPoint, State.dmaNow, State.bus]

section Turn

variable {s : State} (hv : s.cfg.ver = .v12 ∨ s.cfg.ver = .v13) {rest : List (List DmaAccess)}

include hv

/-- With DMA the turn makes the accesses of the first list ahead. -/
theorem dmaPoint_of_dma {l : List DmaAccess} (h : s.dma = l :: rest) : s.dmaPoint =
    { s with mem := (l.foldl (Bus.dmaAccess s.cfg) s.bus).mem, devLog := (l.foldl (Bus.dmaAccess s.cfg) s.bus).devLog,
             dma := rest } := by
  simp only [State.dmaPoint, State.dmaNow, (hasHoldPins_iff _).2 hv, if_true, h, List.headD_cons, List.tail_cons]

/-- An empty list is a turn without an access. -/
theorem dmaPoint_nil (h : s.dma = [] :: rest) : s.dmaPoint = { s with dma := rest } := by
  rw [dmaPoint_of_dma hv h]
  rfl

/-- The first access of the turn is like one of the core; the others follow in the state it leaves. -/
theorem dmaPoint_cons_read {c : Addr} {l : List DmaAccess} (h : s.dma = (.read c :: l) :: rest) :
    s.dmaPoint = ({ s with
      dma := l :: rest
      devLog := if s.cfg.backing c = .device then .read c :: s.devLog else s.devLog } : State).dmaPoint := by
  rw [dmaPoint_of_dma hv h, dmaPoint_of_dma (l := l) (rest := rest) (by exact hv) rfl]
  have hbus : s.bus.noteRead s.cfg c =
      { s.bus with devLog := if s.cfg.backing c = .device then .read c :: s.devLog else s.devLog } := by
    unfold Bus.noteRead State.bus
    split <;> rfl
  simp only [List.foldl_cons, Bus.dmaAccess, hbus]
  rfl

theorem dmaPoint_cons_write {c : Addr} {w : Word} {l : List DmaAccess} (h : s.dma = (.write c w :: l) :: rest) :
    s.dmaPoint = ({ s with
      dma := l :: rest, mem := (s.putWord c w).mem, devLog := (s.putWord c w).devLog } : State).dmaPoint := by
  rw [dmaPoint_of_dma hv h, dmaPoint_of_dma (l := l) (rest := rest) (by exact hv) rfl]
  rfl

end Turn

/-- Settles O11: the clauses on reads, on writes and on the DMA master's turn are the rules above. -/
theorem memoryReadAfterWrite : Obligations.MemoryReadAfterWrite := by
  intro s a v eb b hm
  refine ⟨readWord_of_mem, fun w => readWord_of_unbacked, readWord_of_device, readWord_eq_bytes s a, rfl,
    noteRead_eq s.dmaPoint a, rfl, congrArg s.dmaPoint.noteRead (wordOf_eq_ofNat eb), storeWord_stored s a v hm,
    storeWord_wf s a v hm, rfl, putByte_stored s.dmaPoint eb b (dmaPoint_wf s hm), storeByte_wf s eb b hm, rfl,
    fun h => h.elim dmaPoint_of_noDma dmaPoint_of_idle, fun rest hv => dmaPoint_nil hv, fun l rest x hv h => ?_⟩
  cases x with
  | read c => exact dmaPoint_cons_read hv h
  | write c w => exact ⟨s.putWord c w, putWord_stored s c w hm, dmaPoint_cons_write hv h⟩

/-! ### The pointers of MULS (R263) -/

/-- The address of level `i` of the array behind Rd, counted from the state before MULS. -/
def arrayD (s : State) (rd : Reg) (i : Nat) : Addr := mulsAddr s.cfg.ver s.mds.segD (s.reg rd) i

/-- The address of level `i` of the array behind Rs. -/
def arrayS (s : State) (rs : Reg) (i : Nat) : Addr := mulsAddr s.cfg.ver s.mds.segS (s.reg rs) i

/-- The offset counts over 16 bits whatever carries out of it. -/
theorem offsetOf_mulsAddr (ver : Version) (seg : Page) (p : Word) (i : Nat) :
    offsetOf (mulsAddr ver seg p i) = p + BitVec.ofNat 16 i := by
  unfold mulsAddr
  split
  · rw [← BitVec.ofInt_natCast, offsetOf_add, offsetOf_mkAddr, BitVec.ofInt_natCast]
  · rw [offsetOf_mkAddr]

theorem offsetOf_mulsAddr_zero (ver : Version) (seg : Page) (p : Word) : offsetOf (mulsAddr ver seg p 0) = p := by
  rw [offsetOf_mulsAddr, BitVec.add_zero]

theorem offsetOf_mulsAddr_succ (ver : Version) (seg : Page) (p : Word) (i : Nat) :
    offsetOf (mulsAddr ver seg p (i + 1)) = offsetOf (mulsAddr ver seg p i) + 1 := by
  rw [offsetOf_mulsAddr, offsetOf_mulsAddr, BitVec.ofNat_add, BitVec.add_assoc]
  rfl

/-- The levels of one array lie at different words: there are at most sixteen. -/
theorem mulsAddr_ne (ver : Version) (seg : Page) (p : Word) {i j : Nat} (hi : i ≤ 16) (hj : j ≤ 16) (h : i ≠ j) :
    mulsAddr ver seg p i ≠ mulsAddr ver seg p j := by
  intro e
  have hoff := congrArg (fun a => (offsetOf a).toNat) e
  simp only [offsetOf_mulsAddr, BitVec.toNat_add, BitVec.toNat_ofNat] at hoff
  have hp := p.isLt
  omega

/-- The page of the next level in [1.3]: a wrap of the offset carries into it. -/
theorem pageOf_mulsAddr_succ (seg : Page) (p : Word) (i : Nat) :
    pageOf (mulsAddr .v13 seg p (i + 1)) =
      if offsetOf (mulsAddr .v13 seg p i) = 0xFFFF#16 then pageOf (mulsAddr .v13 seg p i) + 1
      else pageOf (mulsAddr .v13 seg p i) := by
  have hnext : mulsAddr .v13 seg p (i + 1) = ptrStep true (mulsAddr .v13 seg p i) 1 := by
    simp only [mulsAddr, ptrStep, if_true, BitVec.add_assoc, BitVec.ofNat_add]
    rfl
  rw [hnext, ← mkAddr_parts (mulsAddr .v13 seg p i), pageOf_ptrStep_up, mkAddr_parts]

/-! ### One level of the pointers -/

/-- A pointer one on, MDS as it then is. -/
def pointerStep (t : State) (r : Reg) (m : MulSegs) : State := ({ t with mds := m } : State).setReg r (t.reg r + 1)

/-- The carry of a pointer at offset `o` into its page (R263). -/
def carryInto (ver : Version) (o : Word) (p : Page) : Page := if ver = .v13 ∧ o = 0xFFFF#16 then p + 1 else p

theorem mulsStepD_eq (t : State) (rd : Reg) : mulsStepD t rd =
    pointerStep t rd { t.mds with segD := carryInto t.cfg.ver (t.reg rd) t.mds.segD } := by
  unfold mulsStepD pointerStep carryInto
  split <;> rfl

theorem mulsStepS_eq (t : State) (rs : Reg) : mulsStepS t rs =
    pointerStep t rs { t.mds with segS := carryInto t.cfg.ver (t.reg rs) t.mds.segS } := by
  unfold mulsStepS pointerStep carryInto
  split <;> rfl

/-- MDS is no register of the register file. -/
theorem greg_with_mds (t : State) (m : MulSegs) (q : GReg) : ({ t with mds := m } : State).greg q = t.greg q := by
  cases q with
  | core r => cases r <;> rfl
  | ext x => cases x <;> rfl

section PointerStep

variable (t : State) (m : MulSegs) {r : Reg}

theorem pointerStep_cfg (r : Reg) : (pointerStep t r m).cfg = t.cfg := setReg_cfg _ _ _

theorem pointerStep_mds (r : Reg) : (pointerStep t r m).mds = m := setReg_mds _ _ _

theorem pointerStep_reg (r : Reg) : (pointerStep t r m).reg r = t.reg r + 1 := setReg_reg_same _ _ _

theorem pointerStep_greg_other {q : GReg} (h : q ≠ .core r) : (pointerStep t r m).greg q = t.greg q :=
  (setGreg_greg_other _ (.core r) q _ h).trans (greg_with_mds t m q)

theorem pointerStep_reg_other {q : Reg} (h : q ≠ r) : (pointerStep t r m).reg q = t.reg q :=
  pointerStep_greg_other t m (q := .core q) (fun e => h (GReg.core.inj e))

theorem pointerStep_status (h : r ≠ .sr) : (pointerStep t r m).status = t.status :=
  setGreg_status _ (.core r) _ (fun e => h (GReg.core.inj e))

theorem pointerStep_sys (r : Reg) :
    SysSame ({ t with mds := (pointerStep t r m).mds } : State) (pointerStep t r m) := by
  rw [pointerStep_mds]
  exact setGreg_sysSame _ (.core r) _

end PointerStep

/-- Sameness but for MDS is transitive. -/
theorem sysSame_of_mds {s t u : State} (h : SysSame ({ s with mds := t.mds } : State) t)
    (k : SysSame ({ t with mds := u.mds } : State) u) : SysSame ({ s with mds := u.mds } : State) u := by
  obtain ⟨⟨h1, h2, h3, -, h5, h6, h7, h8, h9⟩, h10, h11⟩ := h
  exact sysSame_trans (t := { t with mds := u.mds }) ⟨⟨h1, h2, h3, rfl, h5, h6, h7, h8, h9⟩, h10, h11⟩ k

/-- `t` is `s` with both pointers `i` levels on, as far as registers go. -/
structure AtLevel (rd rs : Reg) (i : Nat) (s t : State) : Prop where
  regD : t.reg rd = offsetOf (arrayD s rd i)
  regS : t.reg rs = offsetOf (arrayS s rs i)
  mds : t.mds = if s.cfg.ver = .v13 then { segD := pageOf (arrayD s rd i), segS := pageOf (arrayS s rs i) } else s.mds
  other : ∀ q : GReg, q ≠ .core rd → q ≠ .core rs → t.greg q = s.greg q
  status : rd ≠ .sr → rs ≠ .sr → t.status = s.status
  sys : SysSame { s with mds := t.mds } t

section Levels

variable {rd rs : Reg} {i : Nat} {s t u : State}

theorem atLevel_zero (rd rs : Reg) (s : State) : AtLevel rd rs 0 s s where
  regD := (offsetOf_mulsAddr_zero _ _ _).symm
  regS := (offsetOf_mulsAddr_zero _ _ _).symm
  mds := by
    unfold arrayD arrayS mulsAddr
    split <;> simp
  other _ _ _ := rfl
  status _ _ := rfl
  sys := sysSame_refl s

/-- The special registers but MDS, SR and PC, and the model's own counters. -/
theorem AtLevel.frame (h : AtLevel rd rs i s t) :
    t.cfg = s.cfg ∧ t.pins = s.pins ∧ t.flags = s.flags ∧ t.svc = s.svc ∧ t.dmack = s.dmack ∧ t.hold = s.hold ∧
      t.freeIdx = s.freeIdx ∧ t.otherBank = s.otherBank ∧ t.ss = s.ss ∧ t.sb = s.sb := by
  obtain ⟨⟨hcfg, hpins, hflags, -, hsvc, hdmack, hhold, hfree, hbank⟩, hss, hsb⟩ := h.sys
  exact ⟨hcfg, hpins, hflags, hsvc, hdmack, hhold, hfree, hbank, hss, hsb⟩

theorem AtLevel.cfg (h : AtLevel rd rs i s t) : t.cfg = s.cfg := h.frame.1

/-- An access of memory leaves the level. -/
theorem AtLevel.of_sysSame (h : AtLevel rd rs i s t) (hsys : SysSame t u) (hregs : ∀ q : GReg, u.greg q = t.greg q)
    (hstatus : u.status = t.status) : AtLevel rd rs i s u := by
  have hmds : u.mds = t.mds := by
    obtain ⟨⟨-, -, -, hmds, -⟩, -⟩ := hsys
    exact hmds
  exact ⟨(hregs (.core rd)).trans h.regD, (hregs (.core rs)).trans h.regS, hmds.trans h.mds,
    fun q hd hs => (hregs q).trans (h.other q hd hs), fun hd hs => hstatus.trans (h.status hd hs),
    hmds ▸ sysSame_trans h.sys hsys⟩

theorem AtLevel.load (h : AtLevel rd rs i s t) (a : Addr) : AtLevel rd rs i s (t.load a).2 :=
  h.of_sysSame (load_sysSame t a) (load_greg t a) rfl

theorem AtLevel.storeWord (h : AtLevel rd rs i s t) (a : Addr) (v : Word) : AtLevel rd rs i s (t.storeWord a v) :=
  h.of_sysSame (storeWord_sysSame t a v) (storeWord_greg t a v) rfl

/-- The model's address of the level is that of the rule. -/
theorem AtLevel.eaD (h : AtLevel rd rs i s t) : mulsEaD t rd = arrayD s rd i := by
  unfold mulsEaD
  rw [h.regD, h.mds, h.cfg]
  split
  · exact mkAddr_parts _
  · next hv => simp [arrayD, mulsAddr, hv]

theorem AtLevel.eaS (h : AtLevel rd rs i s t) : mulsEaS t rs = arrayS s rs i := by
  unfold mulsEaS
  rw [h.regS, h.mds, h.cfg]
  split
  · exact mkAddr_parts _
  · next hv => simp [arrayS, mulsAddr, hv]

theorem AtLevel.step (h : AtLevel rd rs i s t) (hne : rd ≠ rs) :
    AtLevel rd rs (i + 1) s (mulsStepS (mulsStepD t rd) rs) := by
  rw [mulsStepD_eq, mulsStepS_eq]
  refine ⟨?_, ?_, ?_, fun q hd hs => ?_, fun hd hs => ?_, ?_⟩
  · rw [pointerStep_reg_other _ _ hne, pointerStep_reg, h.regD]
    exact (offsetOf_mulsAddr_succ _ _ _ _).symm
  · rw [pointerStep_reg, pointerStep_reg_other _ _ hne.symm, h.regS]
    exact (offsetOf_mulsAddr_succ _ _ _ _).symm
  · rw [pointerStep_mds, pointerStep_mds, pointerStep_cfg, pointerStep_reg_other _ _ hne.symm, h.cfg, h.regD, h.regS,
      h.mds]
    unfold arrayD arrayS carryInto
    by_cases hv : s.cfg.ver = .v13
    · simp only [hv, true_and, if_true, pageOf_mulsAddr_succ]
    · simp only [hv, false_and, if_false]
  · rw [pointerStep_greg_other _ _ hs, pointerStep_greg_other _ _ hd, h.other q hd hs]
  · rw [pointerStep_status _ _ hs, pointerStep_status _ _ hd, h.status hd hs]
  · exact sysSame_of_mds (sysSame_of_mds h.sys (pointerStep_sys _ _ _)) (pointerStep_sys _ _ _)

/-- A step of the pointers leaves memory and its traffic. -/
theorem mulsSteps_bus (t : State) (rd rs : Reg) : (mulsStepS (mulsStepD t rd) rs).mem = t.mem ∧
    (mulsStepS (mulsStepD t rd) rs).devLog = t.devLog ∧ (mulsStepS (mulsStepD t rd) rs).dma = t.dma := by
  rw [mulsStepD_eq, mulsStepS_eq]
  simp [pointerStep]

/-- The words the FIR move stores to are the levels after the first. -/
theorem mem_mulsStores (hne : rd ≠ rs) (h : AtLevel rd rs i s t) (n : Nat) (a : Addr) :
    a ∈ mulsStores rd rs n t ↔ ∃ j : Nat, i < j ∧ j ≤ i + n ∧ a = arrayD s rd j := by
  induction n generalizing i t with
  | zero => simp [mulsStores]; omega
  | succ n ih =>
    rw [mulsStores, List.mem_cons, ih (h.step hne), (h.step hne).eaD]
    constructor
    · rintro (rfl | ⟨j, h1, h2, rfl⟩)
      · exact ⟨i + 1, by omega, by omega, rfl⟩
      · exact ⟨j, by omega, by omega, rfl⟩
    · rintro ⟨j, h1, h2, rfl⟩
      rcases Nat.eq_or_lt_of_le (Nat.succ_le_of_lt h1) with rfl | h3
      · exact .inl rfl
      · exact .inr ⟨j, h3, by omega, rfl⟩

end Levels

/-! ### What the levels do to memory (R264, R267) -/

/-- `t` is `s` after the accesses of the first `i` levels, as far as memory goes: with the FIR move on the levels from 1
to `i - 1` hold the words of the levels below them, and no other byte is changed but by DMA. -/
structure MovedTo (rd : Reg) (move : Bool) (i : Nat) (s t : State) : Prop where
  later : LaterOn s t
  wf : move = true → Memory.wf t.mem = true
  moved : move = true → ∀ j : Nat, 1 ≤ j → j < i → t.readWord (arrayD s rd j) = s.readWord (arrayD s rd (j - 1))
  rest : ∀ b : Nat, (move = true → ∀ j : Nat, 1 ≤ j → j < i → b / 2 ≠ (arrayD s rd j).toNat) →
    ¬ DmaWrites s (BitVec.ofNat 22 (b / 2)) → Memory.readByte t.mem b = Memory.readByte s.mem b

/-- The words MULS reads and stores allow a statement: no device and no DMA access changes them meanwhile, the words the
move stores are RAM, and none of them is an Rs-side word read later. -/
structure MulsWords (rd rs : Reg) (move : Bool) (c : Nat) (s : State) : Prop where
  count : c ≤ 16
  steadyD : ∀ i : Nat, i < c → Steady s (arrayD s rd i)
  steadyS : ∀ i : Nat, i < c → Steady s (arrayS s rs i)
  ram : move = true → ∀ i : Nat, 1 ≤ i → i < c → s.cfg.backing (arrayD s rd i) = .ram
  apart : move = true → ∀ i j : Nat, i < c → 1 ≤ j → j < i → arrayS s rs i ≠ arrayD s rd j

section Memory

variable {rd rs : Reg} {move : Bool} {i c : Nat} {s t : State}

theorem movedTo_zero (hwf : move = true → Memory.wf s.mem = true) : MovedTo rd move 0 s s where
  later := laterOn_refl s
  wf := hwf
  moved _ j _ hj := absurd hj (Nat.not_lt_zero j)
  rest _ _ _ := rfl

/-- A steady word that no level has stored to reads as before. -/
theorem MovedTo.readWord (h : MovedTo rd move i s t) {a : Addr} (ha : Steady s a)
    (hne : move = true → ∀ j : Nat, 1 ≤ j → j < i → a ≠ arrayD s rd j) : t.readWord a = s.readWord a :=
  readWord_congr a h.later.1 ha.1 fun k hk => h.rest k
    (fun hm j h1 h2 e => hne hm j h1 h2 (BitVec.eq_of_toNat_eq (hk.symm.trans e)))
    (by rw [ofNat_half a k hk]; exact ha.2)

/-- A load takes the level no further. -/
theorem MovedTo.load (h : MovedTo rd move i s t) (hw : MulsWords rd rs move c s) (hi : i ≤ c) (a : Addr) :
    MovedTo rd move i s (t.load a).2 where
  later := laterOn_trans h.later (load_laterOn t a)
  wf hm := load_wf t a (h.wf hm)
  moved hm j h1 h2 := by
    have hsteady := Steady.later h.later (hw.steadyD j (by omega))
    rw [← h.moved hm j h1 h2, ← load_word t _ hsteady]
    exact readWord_congr (s := t.dmaPoint) _ rfl hsteady.1 (fun _ _ => rfl)
  rest b hb hd := (load_byte t a b (fun e => hd (h.later.2 _ e))).trans (h.rest b hb hd)

/-- A word loaded at a level is the word that was there before MULS. -/
theorem MovedTo.load_word (h : MovedTo rd move i s t) {a : Addr} (ha : Steady s a)
    (hne : move = true → ∀ j : Nat, 1 ≤ j → j < i → a ≠ arrayD s rd j) : (t.load a).1 = s.readWord a :=
  (Laws.load_word t a (Steady.later h.later ha)).trans (h.readWord ha hne)

/-- A level that stores nothing. -/
theorem MovedTo.succ_of_still (h : MovedTo rd move i s t) (hstill : i = 0 ∨ move = false) :
    MovedTo rd move (i + 1) s t where
  later := h.later
  wf := h.wf
  moved hm j h1 h2 := by
    rcases hstill with rfl | hoff
    · omega
    · rw [hoff] at hm; exact Bool.noConfusion hm
  rest b hb hd := h.rest b (fun hm j h1 h2 => hb hm j h1 (by omega)) hd

/-- A level of the FIR move: the word of the level below is stored over this one's. -/
theorem MovedTo.succ_of_store (h : MovedTo rd move (i + 1) s t) (hw : MulsWords rd rs move c s) (hi : i + 1 < c)
    (hm : move = true) :
    MovedTo rd move (i + 2) s (t.storeWord (arrayD s rd (i + 1)) (s.readWord (arrayD s rd i))) where
  later := laterOn_trans h.later (storeWord_laterOn t _ _)
  wf _ := storeWord_wf t _ _ (h.wf hm)
  moved _ j h1 h2 := by
    by_cases hj : j = i + 1
    · subst hj
      exact storeWord_readWord_same t _ _ (h.wf hm) (h.later.1 ▸ hw.ram hm (i + 1) h1 hi)
    · have hc := hw.count
      have hne : arrayD s rd j ≠ arrayD s rd (i + 1) := mulsAddr_ne _ _ _ (by omega) (by omega) hj
      rw [storeWord_readWord_other t _ _ _ hne (Steady.later h.later (hw.steadyD j (by omega)))]
      exact h.moved hm j h1 (by omega)
  rest b hb hd := by
    rw [storeWord_byte t _ _ b (hb hm (i + 1) (by omega) (by omega)) (fun e => hd (h.later.2 _ e))]
    exact h.rest b (fun hm j h1 h2 => hb hm j h1 (by omega)) hd

/-- The Rd-side word of the level before, none at the first. -/
def wordBefore (s : State) (rd : Reg) : Nat → Option Word
  | 0 => none
  | i + 1 => some (s.readWord (arrayD s rd i))

theorem MovedTo.firStore (h : MovedTo rd move i s t) (hl : AtLevel rd rs i s t) (hw : MulsWords rd rs move c s)
    (hi : i < c) : MovedTo rd move (i + 1) s (firStore t move rd (wordBefore s rd i)) := by
  cases i with
  | zero => exact h.succ_of_still (.inl rfl)
  | succ i =>
    cases move with
    | false => exact h.succ_of_still (.inr rfl)
    | true =>
      show MovedTo rd true (i + 2) s (t.storeWord (mulsEaD t rd) (s.readWord (arrayD s rd i)))
      rw [hl.eaD]
      exact h.succ_of_store hw hi rfl

/-- The steps of the pointers do not touch memory. -/
theorem MovedTo.steps (h : MovedTo rd move i s t) (hcfg : (mulsStepS (mulsStepD t rd) rs).cfg = t.cfg) :
    MovedTo rd move i s (mulsStepS (mulsStepD t rd) rs) := by
  obtain ⟨hmem, hlog, hdma⟩ := mulsSteps_bus t rd rs
  refine ⟨laterOn_trans h.later (laterOn_of_eq hcfg hdma), fun hm => hmem ▸ h.wf hm, fun hm j h1 h2 => ?_,
    fun b hb hd => hmem ▸ h.rest b hb hd⟩
  rw [← h.moved hm j h1 h2]
  unfold State.readWord
  rw [hcfg, hmem, hlog]

end Memory

/-! ### The levels of MULS (R267) -/

section Loop

variable {rd rs : Reg} {move : Bool} {i c : Nat} {s t : State}

theorem AtLevel.firStore (h : AtLevel rd rs i s t) (move : Bool) (prev : Option Word) :
    AtLevel rd rs i s (firStore t move rd prev) := by
  unfold Machine.firStore
  split
  · exact h
  · split
    · exact h.storeWord _ _
    · exact h

/-- One product of the sum (R260, R262). -/
theorem mulProduct_eq_specProduct (k : MulKind) (x y : Word) (hl : AtLevel rd rs i s t) :
    mulProduct t k x y = specProduct k (FractionOn s) x y := by
  obtain ⟨hcfg, -, hflags, -⟩ := hl.frame
  have hfraction : t.fraction = FractionOn s := by
    unfold State.fraction FractionOn
    rw [hcfg, hflags, Bool.and_comm]
  unfold mulProduct specProduct
  rw [hfraction]
  cases k <;> simp only [mulOpD, mulOpS, two_mul]

/-- From level `i` the remaining levels complete the sum, the pointers and the moves. -/
theorem mulsLevels_done (k : MulKind) (hne : rd ≠ rs) (hw : MulsWords rd rs move c s) (n : Nat) (hn : i + n = c)
    (hl : AtLevel rd rs i s t) (hm : MovedTo rd move i s t) :
    let sum (m : Nat) : Int :=
      specSum k (FractionOn s) (fun j => s.readWord (arrayD s rd j)) (fun j => s.readWord (arrayS s rs j)) m
    let r := mulsLevels k rd rs move n (wordBefore s rd i) (sum i) t
    r.1 = sum c ∧ AtLevel rd rs c s r.2 ∧ MovedTo rd move c s r.2 := by
  induction n generalizing i t with
  | zero =>
    obtain rfl : i = c := hn
    exact ⟨rfl, hl, hm⟩
  | succ n ih =>
    have hi : i < c := by omega
    have hc := hw.count
    have hx : (t.load (arrayD s rd i)).1 = s.readWord (arrayD s rd i) :=
      hm.load_word (hw.steadyD i hi) fun _ j _ hj => mulsAddr_ne _ _ _ (by omega) (by omega) (by omega)
    have hlx := hl.load (arrayD s rd i)
    have hmx := hm.load hw hi.le (arrayD s rd i)
    have hy : ((t.load (arrayD s rd i)).2.load (arrayS s rs i)).1 = s.readWord (arrayS s rs i) :=
      hmx.load_word (hw.steadyS i hi) fun hmove j h1 hj => hw.apart hmove i j hi h1 hj
    have hly := hlx.load (arrayS s rs i)
    have hmy := hmx.load hw hi.le (arrayS s rs i)
    have hlf := hly.firStore move (wordBefore s rd i)
    have hmf := hmy.firStore hly hw hi
    have hstep := hlf.step hne
    have hrest := ih (by omega) hstep (hmf.steps (hstep.cfg.trans hlf.cfg.symm))
    simp only [mulsLevels, hl.eaD, hl.eaS, hx, hy, mulProduct_eq_specProduct k _ _ hl]
    exact hrest

end Loop

/-! ### The end of MULS (R265, R267) -/

section SetMr

variable (s : State) (v : BitVec 32)

theorem setMr_greg_other (q : GReg) (h3 : q ≠ .core .r3) (h4 : q ≠ .core .r4) : (s.setMr v).greg q = s.greg q :=
  (setGreg_greg_other _ (.core .r3) q _ h3).trans (setGreg_greg_other s (.core .r4) q _ h4)

theorem setMr_status : (s.setMr v).status = s.status :=
  (setGreg_status _ (.core .r3) _ (by decide)).trans (setGreg_status s (.core .r4) _ (by decide))

theorem setMr_otherBank : (s.setMr v).otherBank = s.otherBank :=
  (setGreg_otherBank _ (.core .r3) _).trans (setGreg_otherBank s (.core .r4) _)

/-- MR reads back what was written to it (R21). -/
theorem setMr_mr : (s.setMr v).mr = v := by
  have hlow : (s.setMr v).reg .r3 = v.extractLsb' 0 16 := setReg_reg_same _ _ _
  have hhigh : (s.setMr v).reg .r4 = v.extractLsb' 16 16 :=
    (setReg_reg_other _ _ _ _ (by decide)).trans (setReg_reg_same _ _ _)
  have hjoin := BitVec.extractLsb'_append_extractLsb'_eq_extractLsb' (x := v) (show 16 = 0 + 16 from rfl) (len₂ := 16)
  rw [State.mr, hlow, hhigh]
  exact hjoin.trans BitVec.extractLsb'_eq_self

end SetMr

/-- Overflow of the 36-bit sum (R267, D20): its top five bits differ. -/
theorem mulsOverflow_eq (acc : BitVec 36) :
    mulsOverflow acc = decide (acc ≠ (acc.extractLsb' 0 32).signExtend 36) := by
  have hacc := acc.isLt
  have htop : (acc.extractLsb' 31 5).toNat = acc.toNat / 2 ^ 31 % 2 ^ 5 := by
    rw [BitVec.extractLsb'_toNat, Nat.shiftRight_eq_div_pow]
  have hlow : (acc.extractLsb' 0 32).toNat = acc.toNat % 2 ^ 32 := by
    rw [BitVec.extractLsb'_toNat, Nat.shiftRight_zero]
  have hext : ((acc.extractLsb' 0 32).signExtend 36).toNat =
      acc.toNat % 2 ^ 32 + if 2 ^ 31 ≤ acc.toNat % 2 ^ 32 then 2 ^ 36 - 2 ^ 32 else 0 := by
    rw [BitVec.toNat_signExtend, BitVec.toNat_setWidth, BitVec.msb_eq_decide, hlow]
    simp only [decide_eq_true_eq]
    rw [Nat.mod_eq_of_lt (by omega : acc.toNat % 2 ^ 32 < 2 ^ 36)]
  unfold mulsOverflow
  rw [← Bool.decide_and, decide_eq_decide]
  simp only [ne_eq, ← BitVec.toNat_inj, htop, hext, BitVec.toNat_ofNat]
  split <;> omega

/-- The writes at the end of MULS after that of MR: the shift buffer in use, the count of free values and S. -/
def finishWith (w : State) (v : BitVec 4) (n : Nat) (b : Bool) : State :=
  { w.setShiftBuf v with status := { w.status with s := b }, freeIdx := n }

theorem finishWith_greg (w : State) (v : BitVec 4) (n : Nat) (b : Bool) (q : GReg) (hsr : q ≠ .core .sr) :
    (finishWith w v n b).greg q = w.greg q := by
  cases q with
  | core r =>
    cases r with
    | sr => exact absurd rfl hsr
    | sp | r1 | r2 | r3 | r4 | bp | pc => rfl
  | ext x => cases x <;> rfl

theorem finishWith_shiftBuf (w : State) (v : BitVec 4) (n : Nat) (b : Bool) : (finishWith w v n b).shiftBuf = v :=
  setShiftBuf_shiftBuf w v

/-- From 1.2 on MULS ends with the guard bits and the overflow, before it with a free value and S as it is. -/
theorem mulsFinish_eq (acc : BitVec 36) (u : State) : ∃ (v : BitVec 4) (n : Nat) (b : Bool),
    mulsFinish acc u = finishWith (u.setMr (acc.extractLsb' 0 32)) v n b ∧
    b = (if u.cfg.ver.is12Plus then decide (acc ≠ (acc.extractLsb' 0 32).signExtend 36) else u.status.s) ∧
    (u.cfg.ver.is12Plus = true → v = acc.extractLsb' 32 4 ∧ n = u.freeIdx) := by
  by_cases h12 : u.cfg.ver.is12Plus = true
  · exact ⟨acc.extractLsb' 32 4, (u.setMr (acc.extractLsb' 0 32)).freeIdx, mulsOverflow acc, if_pos h12,
      (mulsOverflow_eq acc).trans (if_pos h12).symm, fun _ => ⟨rfl, setMr_freeIdx u _⟩⟩
  · exact ⟨Config.freeShiftBuffer (u.setMr (acc.extractLsb' 0 32)).freeIdx,
      (u.setMr (acc.extractLsb' 0 32)).freeIdx + 1, (u.setMr (acc.extractLsb' 0 32)).status.s, if_neg h12,
      (congrArg Status.s (setMr_status u _)).trans (if_neg h12).symm, fun h => absurd h h12⟩

/-- What the end of MULS does to the state the levels leave (R265, R267). -/
structure Finished (acc : BitVec 36) (u t : State) : Prop where
  mr : t.mr = acc.extractLsb' 0 32
  guard : u.cfg.ver.is12Plus = true → t.shiftBuf = acc.extractLsb' 32 4 ∧ t.freeIdx = u.freeIdx
  other : ∀ q : GReg, q ≠ .core .r3 → q ≠ .core .r4 → q ≠ .core .sr → t.greg q = u.greg q
  status : t.status = { u.status with
    s := if u.cfg.ver.is12Plus then decide (acc ≠ (acc.extractLsb' 0 32).signExtend 36) else u.status.s }
  sb : ∃ v : BitVec 4, t.sb = (withShiftBuf u v).sb
  mds : t.mds = u.mds
  bus : t.mem = u.mem ∧ t.devLog = u.devLog
  sys : t.cfg = u.cfg ∧ t.pins = u.pins ∧ t.flags = u.flags ∧ t.ss = u.ss ∧ t.svc = u.svc ∧ t.dmack = u.dmack ∧
    t.hold = u.hold ∧ t.otherBank = u.otherBank

theorem mulsFinish_finished (acc : BitVec 36) (u : State) : Finished acc u (mulsFinish acc u) := by
  obtain ⟨v, n, b, hrun, hb, h12⟩ := mulsFinish_eq acc u
  have hbuf : ((u.setMr (acc.extractLsb' 0 32)).setShiftBuf v).sb = (withShiftBuf u v).sb := by
    rw [← setShiftBuf_eq_withShiftBuf]
    simp only [State.setShiftBuf, setMr_svc, setMr_sb]
  rw [hrun]
  refine ⟨setMr_mr u _, fun h => ?_, fun q h3 h4 hsr => ?_, ?_, ⟨v, hbuf⟩, setMr_mds u _,
    ⟨setMr_mem u _, setMr_devLog u _⟩, setMr_cfg u _, setMr_pins u _, setMr_flags u _, setMr_ss u _, setMr_svc u _,
    setMr_dmack u _, setMr_hold u _, setMr_otherBank u _⟩
  · obtain ⟨rfl, hn⟩ := h12 h
    exact ⟨finishWith_shiftBuf _ _ _ _, hn⟩
  · rw [finishWith_greg _ _ _ _ q hsr, setMr_greg_other u _ q h3 h4]
  · rw [← hb, ← setMr_status u (acc.extractLsb' 0 32)]
    rfl

/-! ### MULS (R261 to R267) -/

/-- The operands the spec allows are not those the model refuses. -/
theorem mulsExcluded_of_ok {ver : Version} {rd rs : Reg} {c : Nat} (h : MulsOperandsOk ver rd rs c) :
    mulsExcluded ver c rd rs = false := by
  unfold MulsOperandsOk at h
  unfold mulsExcluded
  by_cases h12 : ver.is12Plus = true
  · rw [if_pos h12] at h ⊢
    simpa [and_assoc] using h
  · rw [if_neg h12] at h ⊢
    obtain ⟨hd, hs, hne⟩ := h
    have hallowed {r : Reg} (hr : r = .r1 ∨ r = .r2 ∨ r = .bp) : mulsRegAllowed r = true := by
      rcases hr with rfl | rfl | rfl <;> rfl
    simp [hallowed hd, hallowed hs, hne]

theorem levelCount_le (n : BitVec 4) : levelCount n ≤ 16 := by
  have hn := n.isLt
  unfold levelCount
  split <;> omega

/-- The shift buffers after a write of the one in use depend on SVC and on what they were. -/
theorem withShiftBuf_sb_congr {s u : State} (hsvc : u.svc = s.svc) (hsb : u.sb = s.sb) (v : BitVec 4) :
    (withShiftBuf u v).sb = (withShiftBuf s v).sb := by
  rw [← setShiftBuf_eq_withShiftBuf, ← setShiftBuf_eq_withShiftBuf]
  simp only [State.setShiftBuf, hsvc, hsb]

/-- The levels and the end together are the effect the rule states. -/
theorem mulsEffect_of_levels {k : MulKind} {rd rs : Reg} {move : Bool} {c : Nat} {s u t : State} {acc : BitVec 36}
    (hacc : acc = BitVec.ofInt 36 (specSum k (FractionOn s) (fun j => s.readWord (arrayD s rd j))
      (fun j => s.readWord (arrayS s rs j)) c))
    (hl : AtLevel rd rs c s u) (hm : MovedTo rd move c s u) (hf : Finished acc u t) :
    MulsEffect k rd rs c (fun j => s.readWord (arrayD s rd j)) (fun j => s.readWord (arrayS s rs j)) (arrayD s rd)
      (arrayS s rs) move s t := by
  obtain ⟨hcfg, hpins, hflags, hsvc, hdmack, hhold, hfree, hbank, hss, hsb⟩ := hl.frame
  obtain ⟨fcfg, fpins, fflags, fss, fsvc, fdmack, fhold, fbank⟩ := hf.sys
  obtain ⟨v, fsb⟩ := hf.sb
  have hcore {r q : Reg} (h : r ≠ q) : GReg.core r ≠ GReg.core q := fun e => h (GReg.core.inj e)
  have hreg {r : Reg} (h3 : r ≠ .r3) (h4 : r ≠ .r4) (hsr : r ≠ .sr) : t.reg r = u.reg r :=
    hf.other (.core r) (hcore h3) (hcore h4) (hcore hsr)
  have hpc : t.pc = u.pc := hf.other (.core .pc) (by decide) (by decide) (by decide)
  have h12 := hcfg ▸ hf.guard
  subst hacc
  refine ⟨hf.mr, fun h => ⟨(h12 h).1, (h12 h).2.trans hfree⟩, fun h3 h4 hsr => (hreg h3 h4 hsr).trans hl.regD,
    fun h3 h4 hsr => (hreg h3 h4 hsr).trans hl.regS, hf.mds.trans hl.mds, fun hd hs => ?_, fun hd hs => ?_,
    fun q hd hs h3 h4 hsr _ => (hf.other q h3 h4 hsr).trans (hl.other q hd hs), fun hoff b hb => ?_,
    fun hon => ⟨?_, ?_⟩, ⟨v, ?_⟩, fcfg.trans hcfg, fpins.trans hpins, fflags.trans hflags, fss.trans hss, fsvc.trans hsvc,
    fdmack.trans hdmack, fhold.trans hhold, fbank.trans hbank⟩
  · rw [hf.status, hl.status hd hs, hcfg]
  · exact hpc.trans (hl.other (.core .pc) (hcore hd.symm) (hcore hs.symm))
  · rw [hf.bus.1]
    exact hm.rest b (fun hon => absurd (hoff.symm.trans hon) Bool.false_ne_true) hb
  · intro i h1 h2
    refine Eq.trans ?_ (hm.moved hon i h1 h2)
    unfold State.readWord
    rw [fcfg, hf.bus.1, hf.bus.2]
  · intro b hb hd
    rw [hf.bus.1]
    exact hm.rest b (fun _ => hb) hd
  · rw [fsb, withShiftBuf_sb_congr hsvc hsb]

/-- MULS on two different pointers, `move` saying that the FIR move is on. -/
theorem mulsRegs_done (k : MulKind) (rd rs : Reg) (n : BitVec 4) (s : State) {move : Bool} (hne : rd ≠ rs)
    (hok : MulsOperandsOk s.cfg.ver rd rs (levelCount n))
    (hmove : (!s.flags.fir && decide (1 < levelCount n)) = move) (hwf : move = true → Memory.wf s.mem = true)
    (hapart : move = true → ∀ i j : Nat, i < levelCount n → 1 ≤ j → j < i → arrayS s rs i ≠ arrayD s rd j) :
    MulsDone (mulsRegs k rd n rs s) k rd rs n move s := by
  have hrun : mulsRegs k rd n rs s =
      storing s (if move then mulsStores rd rs (levelCount n - 1) s else [])
        (mulsFinish (BitVec.ofInt 36 (mulsLevels k rd rs move (levelCount n) none 0 s).1)
          (mulsLevels k rd rs move (levelCount n) none 0 s).2) := by
    have hallowed : mulsExcluded s.cfg.ver (mulsCount n) rd rs = false := mulsExcluded_of_ok hok
    subst hmove
    exact if_neg (by rw [hallowed]; exact Bool.false_ne_true)
  have hstores (a : Addr) : a ∈ mulsStores rd rs (levelCount n - 1) s ↔
      ∃ j : Nat, 1 ≤ j ∧ j < levelCount n ∧ a = arrayD s rd j := by
    rw [mem_mulsStores hne (atLevel_zero rd rs s)]
    exact exists_congr fun j => ⟨fun ⟨h1, h2, h3⟩ => ⟨h1, by omega, h3⟩, fun ⟨h1, h2, h3⟩ => ⟨h1, by omega, h3⟩⟩
  rw [hrun]
  refine ⟨fun ⟨hon, j, h1, h2, hahead⟩ => ?_, fun hfree => ⟨_, storing_next s _ _ fun a ha hahead => hfree ?_, ?_⟩⟩
  · rw [if_pos hon]
    exact storing_refused s _ _ _ ((hstores _).2 ⟨j, h1, h2, rfl⟩) hahead
  · cases move with
    | false => exact absurd ha List.not_mem_nil
    | true =>
      obtain ⟨j, h1, h2, rfl⟩ := (hstores a).1 ha
      exact ⟨rfl, j, h1, h2, hahead⟩
  · intro hsteady hram
    have hw : MulsWords rd rs move (levelCount n) s :=
      ⟨levelCount_le n, fun i hi => (hsteady i hi).1, fun i hi => (hsteady i hi).2, hram, hapart⟩
    obtain ⟨hsum, hl, hm⟩ := mulsLevels_done k hne hw (levelCount n) (Nat.zero_add _) (atLevel_zero rd rs s)
      (movedTo_zero hwf)
    exact mulsEffect_of_levels (congrArg (BitVec.ofInt 36) hsum) hl hm (mulsFinish_finished _ _)

/-- Settles O36: the levels of MULS with the FIR move on. -/
theorem mulsMovesForward : Obligations.MulsMovesForward := by
  intro rd rs n s hne hok hfir hn hm hapart
  have hcount : 1 < levelCount n := by
    have hn1 : n.toNat ≠ 1 := fun e => hn (BitVec.eq_of_toNat_eq e)
    unfold levelCount
    split
    · decide
    · next h0 =>
      have hn0 : n.toNat ≠ 0 := fun e => h0 (BitVec.eq_of_toNat_eq e)
      omega
  have hmove : (!s.flags.fir && decide (1 < levelCount n)) = true := by simp [hfir, hcount]
  have done (k : MulKind) := mulsRegs_done k rd rs n s hne hok hmove (fun _ => hm) (fun _ => hapart)
  exact ⟨done .uu, done .us, done .ss⟩

end Sys2Proof.Proofs

namespace Sys2Proof.Proofs

open Sys2Proof Sys2Proof.Machine Sys2Proof.Laws

/-! ### The codes of the operations (R123) -/

/-- The map in force is always a valid one. -/
theorem aluCodes_valid (p : Params) : p.aluCodes.valid = true := by
  unfold Params.aluCodes
  split
  · assumption
  · decide

/-- Every operation but LOAD has its code from the map. -/
theorem aluNum_mem_codes (p : Params) {op : AluOp} (h : op ≠ .load) : p.aluNum op ∈ p.aluCodes.codes := by
  cases op with
  | load => exact absurd rfl h
  | _ => simp [Params.aluNum, AluOpMap.codes]

/-- 1001 is LOAD's alone: no valid map gives it away. -/
theorem aluNum_ne_load {p : Params} {op : AluOp} (h : op ≠ .load) : p.aluNum op ≠ 9#4 := by
  have hvalid := aluCodes_valid p
  rw [AluOpMap.valid, Bool.and_eq_true, List.all_eq_true] at hvalid
  obtain ⟨-, hfree⟩ := hvalid
  have hop := of_decide_eq_true (hfree _ (aluNum_mem_codes p h))
  exact fun h9 => hop (h9 ▸ List.mem_cons_self)

theorem aluOf?_load (p : Params) : p.aluOf? 9#4 = some .load := by
  have hne (op : AluOp) (h : op ≠ .load) : ¬ 9#4 = p.aluNum op := fun e => aluNum_ne_load h e.symm
  unfold Params.aluOf?
  rw [if_neg (hne .add (by decide)), if_neg (hne .adc (by decide)), if_neg (hne .sub (by decide)),
    if_neg (hne .sbc (by decide)), if_neg (hne .cmp (by decide)), if_neg (hne .neg (by decide)),
    if_neg (hne .xor (by decide))]
  exact if_pos rfl

/-- A code that no operation has. -/
theorem aluOf?_eq_none {p : Params} {n : BitVec 4} (h : ∀ op, p.aluNum op ≠ n) : p.aluOf? n = none := by
  simp only [Params.aluOf?, fun op => (h op).symm, if_false]

/-- The default map leaves 0101 and 0111 free. -/
theorem aluNum_table_ne {p : Params} (hp : p.aluOps = AluOpMap.table) {n : BitVec 4} (hn : n ∈ [5#4, 7#4]) (op : AluOp) :
    p.aluNum op ≠ n := by
  have hcodes : p.aluCodes = AluOpMap.table := by rw [Params.aluCodes, hp]; exact ite_self _
  simp only [List.mem_cons, List.not_mem_nil, or_false] at hn
  obtain rfl | rfl := hn <;> cases op <;> simp [Params.aluNum, hcodes, AluOpMap.table]

/-! ### The fields of a word (R122) -/

/-- A run of bits inside a run of bits. -/
theorem extractLsb'_extractLsb' {n : Nat} (x : BitVec n) {a la b lb : Nat} (h : b + lb ≤ la) :
    (x.extractLsb' a la).extractLsb' b lb = x.extractLsb' (a + b) lb := by
  ext i hi
  have hlt : b + i < la := by omega
  simp [hlt, Nat.add_assoc]

theorem modeField_hi (w : Word) : (modeField w).extractLsb' 1 2 = w.extractLsb' 7 2 :=
  extractLsb'_extractLsb' w (by decide)

theorem lowHi_lowField (w : Word) : lowHi (lowField w) = w.extractLsb' 3 3 := extractLsb'_extractLsb' w (by decide)

theorem lowBit_lowField (w : Word) : lowBit (lowField w) = w.extractLsb' 4 2 := extractLsb'_extractLsb' w (by decide)

theorem lowRs_lowField (w : Word) : lowRs (lowField w) = w.extractLsb' 0 3 := extractLsb'_extractLsb' w (by decide)

theorem lowField_getLsbD (w : Word) {k : Nat} (h : k < 6) : (lowField w).getLsbD k = w.getLsbD k := by
  simp [lowField, h]

/-- Bits 8:6 and bits 5:4 of bits 8:4, in which R144 (f) is written. -/
theorem modeField_of_bits_4_8 (w : Word) : modeField w = (w.extractLsb' 4 5).extractLsb' 2 3 := by
  rw [extractLsb'_extractLsb' w (by decide)]
  rfl

theorem lowBit_of_bits_4_8 (w : Word) : lowBit (lowField w) = (w.extractLsb' 4 5).extractLsb' 0 2 := by
  rw [extractLsb'_extractLsb' w (by decide), lowBit_lowField]

/-- Bits 8:6 and bit 5 of bits 8:5. -/
theorem modeField_of_bits_5_8 (w : Word) : modeField w = (w.extractLsb' 5 4).extractLsb' 1 3 := by
  rw [extractLsb'_extractLsb' w (by decide)]
  rfl

theorem low5_of_bits_5_8 (w : Word) : (lowField w).getLsbD 5 = (w.extractLsb' 5 4).getLsbD 0 := by
  simp [lowField]

/-- A word is its fields. -/
theorem mkWord_fields (w : Word) : mkWord (opField w) (rdField w) (modeField w) (lowField w) = w := by
  simp only [mkWord, opField, rdField, modeField, lowField]
  rw [BitVec.extractLsb'_append_extractLsb'_eq_extractLsb' (by rfl),
    BitVec.extractLsb'_append_extractLsb'_eq_extractLsb' (by rfl),
    BitVec.extractLsb'_append_extractLsb'_eq_extractLsb' (by rfl)]
  exact BitVec.extractLsb'_eq_self

/-- The word EXT_PREFIX by its fields. -/
theorem eq_prefixWord {p : Params} {w : Word} (hop : opField w = 15#4) (hrd : rdField w = 7#3)
    (hm : modeField w = p.prefixMode) (hlo : lowField w = 0#6) : w = p.prefixWord := by
  rw [← mkWord_fields w, hop, hrd, hm, hlo, Params.prefixMode, Params.prefixWord]
  cases p.extPrefix <;> decide

/-- Bits 8:7 are 00 in the modes 000 and 001. -/
theorem modeHi_eq_zero_iff (m : BitVec 3) : m.extractLsb' 1 2 = 0#2 ↔ m = 0#3 ∨ m = 1#3 := by
  revert m
  decide

theorem lowHi_eq_append_iff (lo : BitVec 6) (b : Bool) :
    lowHi lo = 0b01#2 ++ bit b ↔ lowBit lo = 1#2 ∧ lo.getLsbD 3 = b := by
  revert lo b
  decide

/-! ### The words that are no instruction (R144) -/

section NoInstruction

variable {p : Params} {op : BitVec 4} {rd m : BitVec 3} {lo : BitVec 6} {w1 w2 : Word}

/-- R144 (a). -/
theorem decodeFields_aluOpHole (hop : op ∉ [13#4, 14#4, 15#4]) (hnone : p.aluOf? op = none)
    (hbranch : ¬ (rd = 7#3 ∧ (m = 0#3 ∨ m = 1#3))) : decodeFields p op rd m lo w1 w2 = .error .aluOpHole := by
  simp only [List.mem_cons, List.not_mem_nil, or_false, not_or] at hop
  obtain ⟨h13, h14, h15⟩ := hop
  have h9 : op ≠ 9#4 := by
    rintro rfl
    rw [aluOf?_load] at hnone
    cases hnone
  simp [decodeFields, h9, h13, h14, h15, hnone, hbranch]

/-- R144 (b): no PUSH, no POP, or none with N = 000; RETF and RETI have N = 010 and 011. -/
theorem decodeFields_multiIndirect (h14 : op ≠ 14#4) (h15 : op ≠ 15#4)
    (h : lowHi lo = 0#3 ∨ (op ≠ 9#4 ∧ op ≠ 13#4)) : ∃ why, decodeFields p op rd 2#3 lo w1 w2 = .error why := by
  have hreturn (k : BitVec 6) (hk : lowHi k ≠ 0#3) : ¬ (op = 9#4 ∧ rd = 5#3 ∧ 2#3 = 2#3 ∧ lo = k) := by
    rintro ⟨rfl, -, -, rfl⟩
    exact h.elim hk fun h9 => h9.1 rfl
  have hmulti (r : Reg) : decodeMulti op r lo = .error .multiIndirect := by
    obtain hn | ⟨h9, h13⟩ := h
    · rw [decodeMulti, if_pos hn]
    · simp [decodeMulti, h9, h13]
  unfold decodeFields
  rw [if_neg (hreturn _ (by decide)), if_neg (hreturn _ (by decide)), if_neg h15, if_neg (by simp), if_neg h14, hmulti]
  split
  · exact ⟨_, rfl⟩
  · exact ⟨_, rfl⟩

/-- Bit operations, shifts and multiplies are no branch where Rd is not 7 or bits 8:7 are not 00. -/
theorem decodeFields_1110 (hbranch : ¬ (rd = 7#3 ∧ (m = 0#3 ∨ m = 1#3))) :
    decodeFields p 14#4 rd m lo w1 w2 = decode1110 (Reg.ofNum rd) m lo := by
  simp [decodeFields, hbranch]

/-- R144 (d). -/
theorem decode1110_low000 {r : Reg} (hbit : lo.getLsbD 3 = true) (hlow : lowBit lo ≠ 0#2) :
    ∃ why, decode1110 r 0#3 lo = .error why := by
  unfold decode1110
  dsimp only
  rw [if_pos rfl, if_pos hbit, if_neg hlow]
  split
  · exact ⟨_, rfl⟩
  · exact ⟨_, rfl⟩

theorem decodeFields_1111 : decodeFields p 15#4 rd m lo w1 w2 = decode1111 p rd m lo w1 w2 := by
  simp [decodeFields]

/-- R144 (e), bits 8:6 = 000. -/
theorem decode1111_low000 (hrd : rd ≠ 7#3) (h : (lowBit lo = 0#2 ∧ lo.getLsbD 3 = false) ∨ lowBit lo = 1#2) :
    decode1111 p rd 0#3 lo w1 w2 = .error .lowOf1111 := by
  have hlow : lowBit lo ≠ 2#2 ∧ lowBit lo ≠ 3#2 ∧ lowHi lo ≠ 1#3 := by
    revert lo
    decide
  obtain ⟨h2, h3, h1⟩ := hlow
  simp [decode1111, hrd, h2, h3, h1]

/-- R144 (e), bits 8:6 = 100. -/
theorem decode1111_low100 (hrd : rd ≠ 7#3) (h : lowHi lo ≠ 1#3) :
    decode1111 p rd 4#3 lo w1 w2 = .error .lowOf1111 := by
  simp [decode1111, hrd, h]

theorem decode1111_mode : decode1111 p rd 5#3 lo w1 w2 = decodeMode lo := by
  simp [decode1111]

/-- R144 (f): bits 5:4 = 01, and bit 5 with bits 2:0 = 110 or 111. -/
theorem decodeMode_hole (h : lowBit lo = 1#2 ∨ (lo.getLsbD 5 = true ∧ lowRs lo ∈ [6#3, 7#3])) :
    decodeMode lo = .error .modeGroup := by
  revert lo
  decide

/-- R144 (g). -/
theorem decode1111_rd7 (hm : m ∈ [4#3, 6#3, 7#3]) (hprefix : ¬ (p.ver = .v20 ∧ m = p.prefixMode ∧ lo = 0#6)) :
    decode1111 p 7#3 m lo w1 w2 = .error .rd7Of1111 := by
  have hmode : m ≠ 5#3 ∧ m ≠ 1#3 ∧ m ≠ 0#3 ∧ m ≠ 2#3 ∧ m ≠ 3#3 := by
    clear hprefix
    revert m
    decide
  obtain ⟨h5, h1, h0, h2, h3⟩ := hmode
  simp only [decode1111, h5, h1, h0, h2, h3, hprefix, if_false, if_true]

/-- STORE is no branch where Rd is not 7 or bits 8:7 are not 00. -/
theorem decodeFields_store (hm : m ≠ 2#3) (hbranch : ¬ (rd = 7#3 ∧ (m = 0#3 ∨ m = 1#3))) :
    decodeFields p 13#4 rd m lo w1 w2 = decodeStore p (Reg.ofNum rd) m lo w1 := by
  simp [decodeFields, hm, hbranch]

/-- R144 (h), STORE (D33). -/
theorem decodeStore_form {r : Reg}
    (h : m ∈ [1#3, 5#3, 6#3] ∨ (m = 4#3 ∧ ¬ (lowBit lo = 1#2 ∧ lo.getLsbD 3 = p.storeW))) :
    decodeStore p r m lo w1 = .error .form := by
  have hmode : m ≠ 0#3 ∧ m ≠ 3#3 ∧ m ≠ 7#3 := by
    obtain h | ⟨rfl, -⟩ := h
    · revert m
      decide
    · decide
  have hdirect : ¬ (m = 4#3 ∧ lowHi lo = 0b01#2 ++ p.storeBit) := by
    rintro ⟨rfl, hlow⟩
    obtain h | ⟨-, h⟩ := h
    · exact absurd h (by decide)
    · exact h ((lowHi_eq_append_iff lo p.storeW).1 hlow)
  obtain ⟨h0, h3, h7⟩ := hmode
  simp only [decodeStore, h0, h3, h7, hdirect, if_false]

/-- R144 (h), LOAD with W = 1. -/
theorem decodeFields_loadStoring (h : lowHi lo = 3#3) : decodeFields p 9#4 rd 4#3 lo w1 w2 = .error .form := by
  simp [decodeFields, aluOf?_load, decodeAlu, h]

end NoInstruction

/-! ### The words after the first (R120)

Whether there is an instruction, and of how many words, stands in the words before: two answers of the decoder on one
first word agree but for the operands that the later words hold. -/

/-- The LOAD forms with W = 1, which are no instruction (R202). -/
def isLoadStoring : Shape → Bool
  | .aluA16 op w _ _ _ => decide (op = .load) && w
  | .extA16 op w _ _ _ => decide (op = .load) && w
  | _ => false

/-- Every other shape names an instruction, and that instruction has the shape. -/
theorem toInstr_cases (sh : Shape) : (isLoadStoring sh = true ∧ sh.toInstr = none) ∨
    (isLoadStoring sh = false ∧ ∃ i, sh.toInstr = some i ∧ i.shape = sh) := by
  cases sh with
  | branch c _ _ => exact .inr ⟨rfl, by cases c <;> exact ⟨_, rfl, rfl⟩⟩
  | bitA16 op _ _ _ | bitRegReg op _ _ | bitRegOff op _ _ | bitMemReg op _ _ _ | bitMemOff op _ _ _ =>
    exact .inr ⟨rfl, by cases op <;> exact ⟨_, rfl, rfl⟩⟩
  | aluBpIm6 op _ _ | aluIm6 op _ _ | aluInd op _ _ _ _ | aluReg op _ _ | aluIm16 op _ _ _ | aluShift op _ _ _ _
  | aluA6 op _ _ | extReg op _ _ | extIm16 op _ _ _ | extInd op _ _ _ _ | extIm6 op _ _ | extBpIm6 op _ _
  | extA6 op _ _ => exact .inr ⟨rfl, by cases op <;> exact ⟨_, rfl, rfl⟩⟩
  | aluA16 op w _ _ _ | extA16 op w _ _ _ =>
    cases w with
    | false => exact .inr ⟨Bool.and_false _, by cases op <;> exact ⟨_, rfl, rfl⟩⟩
    | true =>
      cases op with
      | load => exact .inl ⟨rfl, rfl⟩
      | _ => exact .inr ⟨rfl, _, rfl, rfl⟩
  | shift16 k _ _ | mul k _ _ | muls k _ _ _ => exact .inr ⟨rfl, by cases k <;> exact ⟨_, rfl, rfl⟩⟩
  | _ => exact .inr ⟨rfl, _, rfl, rfl⟩

/-- What two answers of the decoder have in common where the first words are the same, and, with `same`, the second
words too: the later words tell nothing but their operands. -/
def AgreeBarOperands (v : Version) (same : Prop) : Except Unassigned Shape → Except Unassigned Shape → Prop
  | .error _, .error _ => True
  | .ok sh, .ok sh' =>
    isLoadStoring sh' = isLoadStoring sh ∧ sh'.availableIn v = sh.availableIn v ∧ (sh.words = 1 → sh' = sh) ∧
      (same → sh.words = 2 → sh' = sh)
  | _, _ => False

theorem AgreeBarOperands.refl (v : Version) (same : Prop) (r : Except Unassigned Shape) : AgreeBarOperands v same r r := by
  cases r with
  | error => trivial
  | ok sh => exact ⟨rfl, rfl, fun _ => rfl, fun _ _ => rfl⟩

/-- Answers that agree case by case. -/
theorem AgreeBarOperands.ite {v : Version} {same c : Prop} [Decidable c] {r r' q q' : Except Unassigned Shape}
    (hr : c → AgreeBarOperands v same r r') (hq : ¬ c → AgreeBarOperands v same q q') :
    AgreeBarOperands v same (if c then r else q) (if c then r' else q') := by
  split
  · exact hr ‹_›
  · exact hq ‹_›

/-- A shape whose operand is the second word. -/
theorem AgreeBarOperands.second {v : Version} {a c : Word} (f : Word → Shape)
    (hload : ∀ a c, isLoadStoring (f c) = isLoadStoring (f a)) (hver : ∀ a c, (f c).availableIn v = (f a).availableIn v)
    (hwords : ∀ a, (f a).words = 2) : AgreeBarOperands v (a = c) (.ok (f a)) (.ok (f c)) :=
  ⟨hload a c, hver a c, fun h => absurd ((hwords a).symm.trans h) (by decide), fun e _ => e ▸ rfl⟩

/-- A shape whose operand is the third word. -/
theorem AgreeBarOperands.third {v : Version} {same : Prop} {b d : Word} (f : Word → Shape)
    (hload : ∀ b d, isLoadStoring (f d) = isLoadStoring (f b)) (hver : ∀ b d, (f d).availableIn v = (f b).availableIn v)
    (hwords : ∀ b, (f b).words = 3) : AgreeBarOperands v same (.ok (f b)) (.ok (f d)) :=
  ⟨hload b d, hver b d, fun h => absurd ((hwords b).symm.trans h) (by decide),
    fun _ h => absurd ((hwords b).symm.trans h) (by decide)⟩

theorem decodeAlu_agree (v : Version) (op : AluOp) (rd : Reg) (m : BitVec 3) (lo : BitVec 6) (a c : Word) :
    AgreeBarOperands v (a = c) (decodeAlu op rd m lo a) (decodeAlu op rd m lo c) := by
  unfold decodeAlu
  repeat' refine .ite (fun _ => ?_) fun _ => ?_
  any_goals exact .refl ..
  · exact .second (.aluIm16 op rd _) (fun _ _ => rfl) (fun _ _ => rfl) (fun _ => rfl)
  · exact .second (.aluA16 op false rd _) (fun _ _ => rfl) (fun _ _ => rfl) (fun _ => rfl)
  · exact .second (.aluA16 op true rd _) (fun _ _ => rfl) (fun _ _ => rfl) (fun _ => rfl)

theorem decodeStore_agree (v : Version) (p : Params) (rd : Reg) (m : BitVec 3) (lo : BitVec 6) (a c : Word) :
    AgreeBarOperands v (a = c) (decodeStore p rd m lo a) (decodeStore p rd m lo c) := by
  unfold decodeStore
  repeat' refine .ite (fun _ => ?_) fun _ => ?_
  any_goals exact .refl ..
  exact .second (.storeA16 rd _) (fun _ _ => rfl) (fun _ _ => rfl) (fun _ => rfl)

/-- The second word of an extended instruction tells all but the operand in the third. -/
theorem decodeExt_agree (v : Version) (same : Prop) (p : Params) (e b d : Word) :
    AgreeBarOperands v same (decodeExt p e b) (decodeExt p e d) := by
  unfold decodeExt
  repeat' refine .ite (fun _ => ?_) fun _ => ?_
  any_goals exact .refl ..
  · exact .third (.extStoreA16 _ _) (fun _ _ => rfl) (fun _ _ => rfl) (fun _ => rfl)
  · cases p.aluOf? (opField e) with
    | none => exact .refl ..
    | some op =>
      dsimp only
      repeat' refine .ite (fun _ => ?_) fun _ => ?_
      any_goals exact .refl ..
      · exact .third (.extIm16 op _ _) (fun _ _ => rfl) (fun _ _ => rfl) (fun _ => rfl)
      · exact .third (.extA16 op false _ _) (fun _ _ => rfl) (fun _ _ => rfl) (fun _ => rfl)
      · exact .third (.extA16 op true _ _) (fun _ _ => rfl) (fun _ _ => rfl) (fun _ => rfl)

/-- What the shapes of the extended instructions have in common: they are of [2.0] and have more than one word. -/
def IsExtended (sh : Shape) : Prop :=
  isLoadStoring sh = false ∧ (∀ v, sh.availableIn v = decide (v = .v20)) ∧ 1 < sh.words

/-- An answer of the decoder that is extended where it is an instruction. -/
def ExtendedIfOk : Except Unassigned Shape → Prop
  | .ok sh => IsExtended sh
  | .error _ => True

theorem ExtendedIfOk.ok {sh : Shape} (hload : isLoadStoring sh = false)
    (hver : ∀ v, sh.availableIn v = decide (v = .v20)) (hwords : 1 < sh.words) : ExtendedIfOk (.ok sh) :=
  ⟨hload, hver, hwords⟩

/-- Every case is extended. -/
theorem ExtendedIfOk.ite {c : Prop} [Decidable c] {r q : Except Unassigned Shape}
    (hr : c → ExtendedIfOk r) (hq : ¬ c → ExtendedIfOk q) : ExtendedIfOk (if c then r else q) := by
  split
  · exact hr ‹_›
  · exact hq ‹_›

theorem decodeExt_extended (p : Params) (e w2 : Word) : ExtendedIfOk (decodeExt p e w2) := by
  unfold decodeExt
  repeat' refine .ite (fun _ => ?_) fun _ => ?_
  any_goals exact .ok rfl (fun _ => rfl) (Nat.one_lt_succ_succ _)
  any_goals trivial
  cases p.aluOf? (opField e) with
  | none => trivial
  | some op =>
    dsimp only
    repeat' refine .ite (fun _ => ?_) fun hc => ?_
    any_goals exact .ok rfl (fun _ => rfl) (Nat.one_lt_succ_succ _)
    any_goals trivial
    · exact ⟨Bool.and_false _, fun _ => rfl, Nat.one_lt_succ_succ _⟩
    · exact ⟨by simp [isLoadStoring, hc], fun _ => rfl, Nat.one_lt_succ_succ _⟩

/-- What EXT_PREFIX begins: an extended instruction, or the one that the machine refuses (log 49). -/
def extOrPrefix (p : Params) (w1 w2 : Word) : Except Unassigned Shape :=
  match decodeExt p w1 w2 with
  | .ok sh => .ok sh
  | .error _ => .ok (.extPrefix w1)

theorem extOrPrefix_ok (p : Params) (w1 w2 : Word) : ∃ sh, extOrPrefix p w1 w2 = .ok sh ∧ IsExtended sh := by
  have hext := decodeExt_extended p w1 w2
  unfold extOrPrefix
  cases h : decodeExt p w1 w2 with
  | ok sh =>
    rw [h] at hext
    exact ⟨sh, rfl, hext⟩
  | error => exact ⟨_, rfl, rfl, fun _ => rfl, Nat.one_lt_succ_succ _⟩

/-- With one second word, the answers are two extended instructions or the same refused one. -/
theorem extOrPrefix_agree_third (v : Version) (same : Prop) (p : Params) (e b d : Word) :
    AgreeBarOperands v same (extOrPrefix p e b) (extOrPrefix p e d) := by
  have hext := decodeExt_agree v same p e b d
  unfold extOrPrefix
  cases hb : decodeExt p e b with
  | ok =>
    cases hd : decodeExt p e d with
    | ok => rw [hb, hd] at hext; exact hext
    | error => rw [hb, hd] at hext; exact hext.elim
  | error =>
    cases hd : decodeExt p e d with
    | ok => rw [hb, hd] at hext; exact hext.elim
    | error => exact .refl ..

/-- With two, they are still both of [2.0] and longer than one word. -/
theorem extOrPrefix_agree (v : Version) (p : Params) (a b c d : Word) :
    AgreeBarOperands v (a = c) (extOrPrefix p a b) (extOrPrefix p c d) := by
  by_cases hac : a = c
  · obtain rfl := hac
    exact extOrPrefix_agree_third ..
  · obtain ⟨sh, hab, hload, hver, hwords⟩ := extOrPrefix_ok p a b
    obtain ⟨sh', hcd, hload', hver', -⟩ := extOrPrefix_ok p c d
    rw [hab, hcd]
    exact ⟨hload'.trans hload.symm, (hver' v).trans (hver v).symm, fun h => absurd h hwords.ne', fun e => absurd e hac⟩

theorem decode1111_agree (v : Version) (p : Params) (rd m : BitVec 3) (lo : BitVec 6) (a b c d : Word) :
    AgreeBarOperands v (a = c) (decode1111 p rd m lo a b) (decode1111 p rd m lo c d) := by
  unfold decode1111
  repeat' refine .ite (fun _ => ?_) fun _ => ?_
  any_goals exact .refl ..
  · exact .second (.bitA16 _ _ _) (fun _ _ => rfl) (fun _ _ => rfl) (fun _ => rfl)
  · exact .second (.call _) (fun _ _ => rfl) (fun _ _ => rfl) (fun _ => rfl)
  · exact .second (.goto _) (fun _ _ => rfl) (fun _ _ => rfl) (fun _ => rfl)
  · exact extOrPrefix_agree v p a b c d

theorem decodeFields_agree (v : Version) (p : Params) (op : BitVec 4) (rd m : BitVec 3) (lo : BitVec 6) (a b c d : Word) :
    AgreeBarOperands v (a = c) (decodeFields p op rd m lo a b) (decodeFields p op rd m lo c d) := by
  unfold decodeFields
  repeat' with_reducible refine .ite (fun _ => ?_) fun _ => ?_
  any_goals exact .refl ..
  · exact decode1111_agree ..
  · exact decodeStore_agree ..
  · cases p.aluOf? op with
    | none => exact .refl ..
    | some o => exact decodeAlu_agree ..

/-! ### The answer of the decoder -/

/-- The shape behind an answer of the decoder. -/
theorem decode_eq_ok_iff {p : Params} {w0 w1 w2 : Word} {i : Instr} :
    decode p w0 w1 w2 = .ok i ↔
      ∃ sh, decodeFields p (opField w0) (rdField w0) (modeField w0) (lowField w0) w1 w2 = .ok sh ∧
        sh.availableIn p.ver = true ∧ sh.toInstr = some i := by
  unfold decode
  cases decodeFields p (opField w0) (rdField w0) (modeField w0) (lowField w0) w1 w2 with
  | error => simp
  | ok sh =>
    dsimp only
    cases hv : sh.availableIn p.ver <;> cases hi : sh.toInstr <;> simp [hv, hi]

/-- Fields of no shape are no instruction. -/
theorem decode_of_error {p : Params} {w0 : Word} (w1 w2 : Word)
    (h : ∃ why, decodeFields p (opField w0) (rdField w0) (modeField w0) (lowField w0) w1 w2 = .error why) :
    ∃ why, decode p w0 w1 w2 = .error why := by
  obtain ⟨why, h⟩ := h
  exact ⟨why, by unfold decode; rw [h]⟩

/-- Whether the words are an instruction stands in the first one. -/
theorem decode_ok_of_ok {p : Params} {w a b : Word} {i : Instr} (h : decode p w a b = .ok i) (c d : Word) :
    ∃ j, decode p w c d = .ok j := by
  obtain ⟨sh, hsh, hver, hi⟩ := decode_eq_ok_iff.1 h
  have hagree := decodeFields_agree p.ver p (opField w) (rdField w) (modeField w) (lowField w) a b c d
  rw [hsh] at hagree
  cases hsh' : decodeFields p (opField w) (rdField w) (modeField w) (lowField w) c d with
  | error => rw [hsh'] at hagree; exact hagree.elim
  | ok sh' =>
    rw [hsh'] at hagree
    obtain ⟨hload, hver', -, -⟩ := hagree
    obtain ⟨-, hnone⟩ | ⟨hnot, -⟩ := toInstr_cases sh
    · rw [hnone] at hi; cases hi
    obtain ⟨hyes, -⟩ | ⟨-, j, hj, -⟩ := toInstr_cases sh'
    · rw [hload, hnot] at hyes; cases hyes
    exact ⟨j, decode_eq_ok_iff.2 ⟨sh', hsh', hver'.trans hver, hj⟩⟩

/-- An instruction of one word stands in the first one, and one of two words in the first two. -/
theorem decode_eq_of_words {p : Params} {w a b c d : Word} {i j : Instr} (hi : decode p w a b = .ok i)
    (hj : decode p w c d = .ok j) (hwords : i.words = 1 ∨ (a = c ∧ i.words = 2)) : j = i := by
  obtain ⟨sh, hsh, -, hi⟩ := decode_eq_ok_iff.1 hi
  obtain ⟨sh', hsh', -, hj⟩ := decode_eq_ok_iff.1 hj
  have hagree := decodeFields_agree p.ver p (opField w) (rdField w) (modeField w) (lowField w) a b c d
  rw [hsh, hsh'] at hagree
  obtain ⟨-, -, hone, htwo⟩ := hagree
  have hlen : i.words = sh.words := by
    obtain ⟨-, hnone⟩ | ⟨-, i', hi', hshape⟩ := toInstr_cases sh
    · rw [hnone] at hi; cases hi
    · obtain rfl : i' = i := Option.some.inj (hi'.symm.trans hi)
      rw [Instr.words, hshape]
  rw [hlen] at hwords
  have hsame : sh' = sh := hwords.elim hone fun ⟨hac, h2⟩ => htwo hac h2
  rw [hsame, hi] at hj
  exact (Option.some.inj hj).symm

/-! ### One step that runs an instruction (R28, R29, R120, R459) -/

/-- Where no pin holds the core and no request is taken, a step fetches and runs, with DMACK low (log 57). -/
theorem step_eq_runNext {s : State} (hrun : Running s) (hs : s.sampled = none) :
    step s = runNext { s with dmack := false } := by
  obtain ⟨hreset, hstalled, hgranted⟩ := hrun
  have ht : ({ s with dmack := false } : State).sampled = none := hs
  simp only [step, hreset, hstalled, hgranted, ht, Bool.false_eq_true, if_false]

/-- `{CS, PC}` after `k` words in [1.0]: inside the page (R29). -/
theorem advance_v10 {s : State} (hv : s.cfg.ver = .v10) (k : Nat) :
    (s.advance k).status.cs = s.status.cs ∧ (s.advance k).pc.toNat = (s.pc.toNat + k) % 65536 := by
  simp only [State.advance, State.seqAddr, hv, if_true, pageOf_mkAddr, offsetOf_mkAddr, BitVec.toNat_add,
    BitVec.toNat_ofNat, true_and]
  omega

/-- `{CS, PC}` after `k` words in the later versions: over 22 bits (R29). -/
theorem advance_later {s : State} (hv : s.cfg.ver ≠ .v10) (k : Nat) :
    (s.advance k).nextPc.toNat = (s.nextPc.toNat + k) % 4194304 := by
  simp only [advance_nextPc, State.seqAddr, hv, if_false, BitVec.toNat_add, BitVec.toNat_ofNat]
  omega

/-- The loads of a fetch, one after the other: each with the word it gives and the state it leaves (R26, R120). -/
def firstLoad (s : State) : Word × State := s.load (s.seqAddr 0)

/-- The second load. -/
def secondLoad (s : State) : Word × State := (firstLoad s).2.load (s.seqAddr 1)

/-- The third load. -/
def thirdLoad (s : State) : Word × State := (secondLoad s).2.load (s.seqAddr 2)

/-- The state that the loads of `n` words leave. -/
def afterLoads (s : State) (n : Nat) : State :=
  if n = 1 then (firstLoad s).2 else if n = 2 then (secondLoad s).2 else (thirdLoad s).2

/-- Loads change neither the parameters nor `{CS, PC}`. -/
theorem afterLoads_same (s : State) (n : Nat) :
    (afterLoads s n).cfg = s.cfg ∧ (afterLoads s n).status = s.status ∧ (afterLoads s n).pc = s.pc := by
  unfold afterLoads
  split_ifs <;> simp only [thirdLoad, secondLoad, firstLoad, load_cfg, load_status, load_pc, and_self]

/-- Where an instruction of `n` words runs: past its words, nothing else being changed since the loads. -/
theorem begin_afterLoads (s : State) (n : Nat) (hold : Bool) :
    (s.cfg.ver = .v10 → ((afterLoads s n).begin n hold).status.cs = s.status.cs ∧
      ((afterLoads s n).begin n hold).pc.toNat = (s.pc.toNat + n) % 65536) ∧
    (s.cfg.ver ≠ .v10 → ((afterLoads s n).begin n hold).nextPc.toNat = (s.nextPc.toNat + n) % 4194304) ∧
    (afterLoads s n).begin n hold =
      { afterLoads s n with
        status := { s.status with cs := ((afterLoads s n).begin n hold).status.cs }
        pc := ((afterLoads s n).begin n hold).pc
        hold := hold } := by
  obtain ⟨hcfg, hstatus, hpc⟩ := afterLoads_same s n
  have hnext : (afterLoads s n).nextPc = s.nextPc := by rw [State.nextPc, State.nextPc, hstatus, hpc]
  rw [← hcfg, ← hnext, ← hstatus, ← hpc]
  exact ⟨fun hv => advance_v10 hv n, fun hv => advance_later hv n, rfl⟩

/-- The fetch of an instruction of the table: the three words give it, and it loads as many as it has. -/
theorem fetch_base {s : State} {i : Instr}
    (hi : decode s.cfg (s.cfg.firstWord (firstLoad s).1) (secondLoad s).1 (thirdLoad s).1 = .ok i) :
    s.fetch = (.base i, afterLoads s i.words) := by
  obtain ⟨j, hj⟩ := decode_ok_of_ok hi 0 0
  obtain ⟨k, hk⟩ := decode_ok_of_ok hi (secondLoad s).1 0
  have hfetch : s.fetch = s.fetchRest (firstLoad s).2 (s.cfg.firstWord (firstLoad s).1) j := by
    unfold State.fetch
    dsimp only
    rw [← firstLoad, hj]
  rw [hfetch]
  unfold State.fetchRest afterLoads
  dsimp only
  rw [← secondLoad, hk]
  by_cases hone : j.words = 1
  · obtain rfl := decode_eq_of_words hj hi (.inl hone)
    rw [if_pos hone, if_pos hone]
  have hmore : i.words ≠ 1 := fun h => hone (decode_eq_of_words hi hj (.inl h) ▸ h)
  rw [if_neg hone, if_neg hmore]
  dsimp only
  by_cases htwo : k.words = 2
  · obtain rfl := decode_eq_of_words hk hi (.inr ⟨rfl, htwo⟩)
    rw [if_pos htwo, if_pos htwo]
  have hthree : i.words ≠ 2 := fun h => htwo (decode_eq_of_words hi hk (.inr ⟨rfl, h⟩) ▸ h)
  rw [if_neg htwo, if_neg hthree, ← thirdLoad, hi]

/-- The fetch of a first word that DECODE_13 reads. -/
theorem fetch_only13 {s : State} {why : Unassigned} {i : Instr13} (hv : s.cfg.ver = .v13)
    (herr : decode s.cfg (s.cfg.firstWord (firstLoad s).1) 0 0 = .error why)
    (hi : Config.decode13 (s.cfg.firstWord (firstLoad s).1) = some i) :
    s.fetch = (.only13 (if i.words = 1 then i else i.withSecond (secondLoad s).1), afterLoads s i.words) := by
  have hfetch : s.fetch = s.fetchRest13 (firstLoad s).2 i := by
    unfold State.fetch
    dsimp only
    rw [← firstLoad, herr]
    dsimp only
    rw [if_pos hv, hi]
  rw [hfetch, State.fetchRest13, afterLoads, ← secondLoad]
  obtain hone | htwo : i.words = 1 ∨ i.words = 2 := by cases i <;> simp [Instr13.words]
  · rw [if_pos hone, if_pos hone, if_pos hone]
  · have hmore : i.words ≠ 1 := by omega
    rw [if_neg hmore, if_neg hmore, if_neg hmore, if_pos htwo]

/-- The fetch of a first word that is no instruction. -/
theorem fetch_unassigned {s : State} {why : Unassigned}
    (herr : decode s.cfg (s.cfg.firstWord (firstLoad s).1) 0 0 = .error why)
    (h13 : s.cfg.ver = .v13 → Config.decode13 (s.cfg.firstWord (firstLoad s).1) = none) :
    s.fetch = (.none why, (firstLoad s).2) := by
  have hnone : (if s.cfg.ver = .v13 then Config.decode13 (s.cfg.firstWord (firstLoad s).1) else none) = none := by
    split
    · exact h13 ‹_›
    · rfl
  unfold State.fetch
  dsimp only
  rw [← firstLoad, herr]
  dsimp only
  rw [hnone]

/-- The second word of an instruction only [1.3] has is its operand: it changes neither the length nor the sampling. -/
theorem withSecond_same (i : Instr13) (w : Word) :
    (i.withSecond w).words = i.words ∧ noSampleAfter13 (i.withSecond w) = noSampleAfter13 i := by
  cases i <;> exact ⟨rfl, rfl⟩

/-- The step refuses a first word that is no instruction. -/
theorem step_unassigned {s : State} {why : Unassigned} (hrun : Running s) (hs : s.sampled = none)
    (herr : decode s.cfg (s.cfg.firstWord (firstLoad s).1) 0 0 = .error why)
    (h13 : s.cfg.ver = .v13 → Config.decode13 (s.cfg.firstWord (firstLoad s).1) = none) :
    step s = .refused (.unassigned why) := by
  have hfetch := fetch_unassigned (s := { s with dmack := false }) herr h13
  rw [step_eq_runNext hrun hs, runNext, hfetch]

/-! ### The words of the tables (R125 to R138) -/

/-- What the decoder asks of the parameters: the version, EXT_PREFIX, the W bit of STORE and the codes in force. -/
theorem decode_congr {p q : Params} (hver : p.ver = q.ver) (hprefix : p.extPrefix = q.extPrefix) (hw : p.storeW = q.storeW)
    (hcodes : p.aluCodes = q.aluCodes) (w0 w1 w2 : Word) : decode p w0 w1 w2 = decode q w0 w1 w2 := by
  have halu : p.aluOf? = q.aluOf? := by
    have hnum : p.aluNum = q.aluNum := by
      funext op
      cases op <;> simp only [Params.aluNum, hcodes]
    funext n
    simp only [Params.aluOf?, hnum]
  have hmode : p.prefixMode = q.prefixMode := by rw [Params.prefixMode, Params.prefixMode, hprefix]
  have hbit : p.storeBit = q.storeBit := by rw [Params.storeBit, Params.storeBit, hw]
  have hext : decodeExt p = decodeExt q := by
    funext e w2
    simp only [decodeExt, halu, hbit]
  have h1111 : decode1111 p = decode1111 q := by
    funext rd m lo w1 w2
    simp only [decode1111, hver, hmode, hext]
  have hstore : decodeStore p = decodeStore q := by
    funext rd m lo w1
    simp only [decodeStore, hbit]
  simp only [decode, decodeFields, hver, halu, h1111, hstore]

/-- The default parameters with a W bit of STORE. -/
def defaultWithStoreW (b : Bool) : Params := { Params.default with storeW := b }

/-! ### The statements -/

/-- Settles O4: by the items of R144, and the step refuses what the fetch does not find. -/
theorem unassignedWordsAreRefused : Obligations.UnassignedWordsAreRefused := by
  refine ⟨fun p w w1 w2 h => decode_of_error w1 w2 ?_, fun s why hrun hs hdecode h13 => ?_⟩
  · simp only [← modeField_hi, ← lowHi_lowField, ← lowBit_lowField, ← lowRs_lowField,
      ← lowField_getLsbD w (by decide : 3 < 6), modeHi_eq_zero_iff, ne_eq] at h
    obtain ⟨hop, hnum, hbranch⟩ | ⟨hops, hop, hbranch⟩ | ⟨hop, hm⟩ | ⟨hop, hm, hn⟩ | ⟨hop, hrd, hm⟩ |
      ⟨hop, hrd, hm, hbit, hlow⟩ | ⟨hop, hrd, hm, hlow⟩ | ⟨hop, hrd, hm, hlow⟩ | ⟨hop, hbits⟩ | ⟨hop, hbits, hrs⟩ |
      ⟨hop, hrd, hm, hprefix⟩ | ⟨hop, hrd, hm⟩ | ⟨hop, hm⟩ | ⟨hop, hm, hw⟩ | ⟨hop, hm, hlow⟩ := h
    -- (a), any map
    · exact ⟨_, decodeFields_aluOpHole hop (aluOf?_eq_none hnum) hbranch⟩
    -- (a), the default map
    · have hcode : opField w ∉ [13#4, 14#4, 15#4] := by
        intro h
        generalize opField w = op at hop h
        revert op
        decide
      exact ⟨_, decodeFields_aluOpHole hcode (aluOf?_eq_none (aluNum_table_ne hops hop)) hbranch⟩
    -- (b), no PUSH and no POP
    · simp only [List.mem_cons, List.not_mem_nil, or_false, not_or] at hop
      obtain ⟨h9, h13, h14, h15⟩ := hop
      rw [hm]
      exact decodeFields_multiIndirect h14 h15 (.inr ⟨h9, h13⟩)
    -- (b), N = 000
    · simp only [List.mem_cons, List.not_mem_nil, or_false] at hop
      rw [hm]
      obtain hop | hop := hop
      · exact decodeFields_multiIndirect (by rw [hop]; decide) (by rw [hop]; decide) (.inl hn)
      · exact decodeFields_multiIndirect (by rw [hop]; decide) (by rw [hop]; decide) (.inl hn)
    -- (c)
    · rw [hop, decodeFields_1110 fun h => hm h.2, hrd]
      exact ⟨_, rfl⟩
    -- (d)
    · rw [hop, decodeFields_1110 fun h => hrd h.1, hm]
      exact decode1110_low000 hbit hlow
    -- (e), bits 8:6 = 000
    · rw [hop, decodeFields_1111, hm]
      exact ⟨_, decode1111_low000 hrd hlow⟩
    -- (e), bits 8:6 = 100
    · rw [hop, decodeFields_1111, hm]
      exact ⟨_, decode1111_low100 hrd hlow⟩
    -- (f), bits 5:4 = 01
    · have hm : modeField w = 5#3 := by rw [modeField_of_bits_4_8, hbits]; rfl
      have hlow : lowBit (lowField w) = 1#2 := by rw [lowBit_of_bits_4_8, hbits]; rfl
      rw [hop, decodeFields_1111, hm, decode1111_mode]
      exact ⟨_, decodeMode_hole (.inl hlow)⟩
    -- (f), bit 5 and bits 2:0
    · have hm : modeField w = 5#3 := by rw [modeField_of_bits_5_8, hbits]; rfl
      have hbit : (lowField w).getLsbD 5 = true := by rw [low5_of_bits_5_8, hbits]; rfl
      rw [hop, decodeFields_1111, hm, decode1111_mode]
      exact ⟨_, decodeMode_hole (.inr ⟨hbit, hrs⟩)⟩
    -- (g)
    · rw [hop, decodeFields_1111, hrd]
      exact ⟨_, decode1111_rd7 hm fun ⟨hv, hmode, hlo⟩ => hprefix hv (eq_prefixWord hop hrd hmode hlo)⟩
    -- (h), STORE, bits 8:6 = 001
    · rw [hop, decodeFields_store (by rw [hm]; decide) fun h => hrd h.1]
      exact ⟨_, decodeStore_form (.inl (by rw [hm]; decide))⟩
    -- (h), STORE, bits 8:6 = 101 or 110
    · have hmode : modeField w ≠ 2#3 ∧ modeField w ≠ 0#3 ∧ modeField w ≠ 1#3 ∧ modeField w ∈ [1#3, 5#3, 6#3] := by
        generalize modeField w = m at hm
        revert m
        decide
      obtain ⟨h2, h0, h1, hform⟩ := hmode
      rw [hop, decodeFields_store h2 fun h => h.2.elim h0 h1]
      exact ⟨_, decodeStore_form (.inl hform)⟩
    -- (h), STORE [A16]
    · rw [hop, decodeFields_store (by rw [hm]; decide) (by rw [hm]; simp)]
      exact ⟨_, decodeStore_form (.inr ⟨hm, hw⟩)⟩
    -- (h), LOAD with W = 1
    · rw [hop, hm]
      exact ⟨_, decodeFields_loadStoring hlow⟩
  · exact step_unassigned hrun hs (hdecode 0 0) h13

/-- Settles O3: the decoder runs on the words, for either W bit of STORE. -/
theorem decodeWrittenWords : Obligations.DecodeWrittenWords := by
  intro p hver hprefix hcodes
  have hp (ws : List Word) : decodeWords p ws = decodeWords (defaultWithStoreW p.storeW) ws :=
    decode_congr (q := defaultWithStoreW p.storeW) hver hprefix rfl (hcodes.trans (ite_self _).symm) _ _ _
  simp only [hp]
  generalize p.storeW = b
  revert b
  decide

/-- Settles O5: the fetch finds the instruction in as many words as it has, and the step runs it from there. -/
theorem stepRunsDecodedInstruction : Obligations.StepRunsDecodedInstruction := by
  intro s hrun hs
  let t : State := { s with dmack := false }
  have hstep : step s = runNext t := step_eq_runNext hrun hs
  refine ⟨fun i hi => ?_, fun i why hv hwhy h13 => ?_⟩
  · have hfetch : t.fetch = (.base i, afterLoads t i.words) := fetch_base hi
    exact ⟨(afterLoads t i.words).begin i.words (noSampleAfter s.cfg.ver i), by rw [hstep, runNext, hfetch],
      begin_afterLoads t _ _⟩
  · have herr : ∃ why, decode t.cfg (t.cfg.firstWord (firstLoad t).1) 0 0 = .error why := by
      cases h0 : decode t.cfg (t.cfg.firstWord (firstLoad t).1) 0 0 with
      | error why => exact ⟨why, rfl⟩
      | ok j =>
        obtain ⟨k, hk⟩ := decode_ok_of_ok h0 (secondLoad t).1 (thirdLoad t).1
        cases hwhy.symm.trans hk
    obtain ⟨why', herr⟩ := herr
    have hfetch := fetch_only13 (s := t) hv herr h13
    refine ⟨(afterLoads t i.words).begin i.words (noSampleAfter13 i), ?_, begin_afterLoads t _ _⟩
    obtain ⟨hwords, hsample⟩ := withSecond_same i (secondLoad t).1
    rw [hstep, runNext, hfetch]
    dsimp only
    split
    · rfl
    · rw [hwords, hsample]; rfl

end Sys2Proof.Proofs

namespace Sys2Proof.Proofs

open Sys2Proof Sys2Proof.Machine Sys2Proof.Laws

/-! ### The 16-bit shifts (R241 to R245)

The count is a number below 32, and each of ASR, LSL and LSR is one write of Rd; `setReg_reg_same` reads the result
back for every Rd, SR and PC among them. -/

/-- The count of the six shifts is `Rs[4:0]` (R241). -/
theorem shiftCnt5_eq_mod (v : Word) : shiftCnt5 v = v.toNat % 32 :=
  BitVec.extractLsb'_toNat 0 5 v

/-- ASR is one write of Rd (R243). -/
theorem exec_asr16 (rd rs : Reg) (s : State) :
    exec (.asr16 rd rs) s =
      .next (s.setReg rd (BitVec.ofInt 16 ((s.reg rd).toInt / 2 ^ ((s.reg rs).toNat % 32)))) := by
  rw [← shiftCnt5_eq_mod, exec_eq_execShape]
  rfl

/-- LSL is one write of Rd (R244). -/
theorem exec_lsl16 (rd rs : Reg) (s : State) :
    exec (.lsl16 rd rs) s =
      .next (s.setReg rd (BitVec.ofNat 16 ((s.reg rd).toNat * 2 ^ ((s.reg rs).toNat % 32)))) := by
  rw [← shiftCnt5_eq_mod, exec_eq_execShape]
  rfl

/-- LSR is one write of Rd (R245). -/
theorem exec_lsr16 (rd rs : Reg) (s : State) :
    exec (.lsr16 rd rs) s =
      .next (s.setReg rd (BitVec.ofNat 16 ((s.reg rd).toNat / 2 ^ ((s.reg rs).toNat % 32)))) := by
  rw [← shiftCnt5_eq_mod, exec_eq_execShape]
  rfl

/-- A word shifted right is still a word, so LSR loses nothing to the width of Rd. -/
theorem toNat_ofNat_div_two_pow (v : Word) (n : Nat) : (BitVec.ofNat 16 (v.toNat / 2 ^ n)).toNat = v.toNat / 2 ^ n := by
  rw [BitVec.toNat_ofNat]
  exact Nat.mod_eq_of_lt ((Nat.div_le_self _ _).trans_lt v.isLt)

/-- Settles O29: each shift writes its result to Rd, and Rd reads it back; only LSL's can be wider than Rd. -/
theorem shift16Results : Obligations.Shift16Results := by
  intro rd rs s n
  refine ⟨⟨_, exec_asr16 rd rs s, ?asr⟩, ⟨_, exec_lsl16 rd rs s, ?lsl⟩, ⟨_, exec_lsr16 rd rs s, ?lsr⟩⟩
  case asr => exact setReg_reg_same _ _ _
  case lsl =>
    rw [setReg_reg_same]
    exact BitVec.toNat_ofNat _ 16
  case lsr =>
    rw [setReg_reg_same]
    exact toNat_ofNat_div_two_pow (s.reg rd) n

end Sys2Proof.Proofs

namespace Sys2Proof.Proofs

open Sys2Proof Sys2Proof.Machine Sys2Proof.Laws

/-! ### EXP (R273)

`redundantFrom v n` reads down from bit `n - 1` and stops at the first bit that differs from the sign: it is at most
`n`, the bits it has passed equal the sign, and the bit it stops at does not. -/

/-- A bit equal to the sign is counted, and the count goes on below it. -/
theorem redundantFrom_succ_of_eq {v : Word} {n : Nat} (h : v.getLsbD n = v.msb) :
    redundantFrom v (n + 1) = redundantFrom v n + 1 :=
  if_pos h

/-- A bit that differs from the sign ends the count. -/
theorem redundantFrom_succ_of_ne {v : Word} {n : Nat} (h : v.getLsbD n ≠ v.msb) : redundantFrom v (n + 1) = 0 :=
  if_neg h

theorem redundantFrom_le (v : Word) (n : Nat) : redundantFrom v n ≤ n := by
  induction n with
  | zero => exact le_rfl
  | succ n ih =>
    by_cases h : v.getLsbD n = v.msb
    · rw [redundantFrom_succ_of_eq h]
      exact Nat.succ_le_succ ih
    · rw [redundantFrom_succ_of_ne h]
      exact Nat.zero_le _

theorem getLsbD_eq_msb_of_lt_redundantFrom {v : Word} {n j : Nat} (hj : j < redundantFrom v n) :
    v.getLsbD (n - 1 - j) = v.msb := by
  induction n generalizing j with
  | zero => exact absurd hj (Nat.not_lt_zero j)
  | succ n ih =>
    by_cases h : v.getLsbD n = v.msb
    · rw [redundantFrom_succ_of_eq h] at hj
      cases j with
      | zero => exact h
      | succ j =>
        have hbit : n + 1 - 1 - (j + 1) = n - 1 - j := by omega
        rw [hbit]
        exact ih (Nat.lt_of_succ_lt_succ hj)
    · rw [redundantFrom_succ_of_ne h] at hj
      exact absurd hj (Nat.not_lt_zero j)

theorem getLsbD_redundantFrom_ne_msb {v : Word} {n : Nat} (hn : redundantFrom v n < n) :
    v.getLsbD (n - 1 - redundantFrom v n) ≠ v.msb := by
  induction n with
  | zero => exact absurd hn (Nat.not_lt_zero _)
  | succ n ih =>
    by_cases h : v.getLsbD n = v.msb
    · rw [redundantFrom_succ_of_eq h] at hn ⊢
      have hbit : n + 1 - 1 - (redundantFrom v n + 1) = n - 1 - redundantFrom v n := by omega
      rw [hbit]
      exact ih (Nat.lt_of_succ_lt_succ hn)
    · rw [redundantFrom_succ_of_ne h]
      exact h

/-- The count is at most 15, so R2 holds it in full. -/
theorem toNat_redundantSigns (v : Word) : (redundantSigns v).toNat = redundantFrom v 15 := by
  have hle : redundantFrom v 15 ≤ 15 := redundantFrom_le v 15
  exact (BitVec.toNat_ofNat _ 16).trans (Nat.mod_eq_of_lt (by omega))

/-- EXP is one write of R2 (R273). -/
theorem exec_exp (s : State) : exec .exp s = .next (s.setGreg (.core .r2) (redundantSigns (s.reg .r4))) := by
  rw [exec_eq_execShape]
  rfl

/-- Settles O40: the count of R273 by the lemmas on `redundantFrom`, the frame by those on one register write. -/
theorem expCountsRedundantSigns : Obligations.ExpCountsRedundantSigns := by
  intro s
  have hsign : (s.reg .r4).getLsbD 15 = (s.reg .r4).msb := (BitVec.msb_eq_getLsbD_last _).symm
  have hresult : (s.setGreg (.core .r2) (redundantSigns (s.reg .r4))).reg .r2 = redundantSigns (s.reg .r4) :=
    setGreg_greg_same s (.core .r2) _
  refine ⟨_, redundantFrom (s.reg .r4) 15, exec_exp s, ?result, redundantFrom_le _ _, ?passed, ?stop,
    fun q hq _ _ => setGreg_greg_other s _ q _ hq, setGreg_status s _ _ (by decide), setGreg_pc s _ _ (by decide),
    setGreg_memSame s _ _, setGreg_sysSame s _ _⟩
  case result => rw [hresult, toNat_redundantSigns]
  case passed =>
    rw [hsign]
    exact fun j hj => getLsbD_eq_msb_of_lt_redundantFrom hj
  case stop =>
    rw [hsign]
    exact getLsbD_redundantFrom_ne_msb

end Sys2Proof.Proofs

namespace Sys2Proof.Proofs

open Sys2Proof Sys2Proof.Machine Sys2Proof.Laws

/-! ### Branches (R335 to R350)

A branch is `branch` at the condition of its shape, so what it does and the COND code it carries are said once for all
fifteen. -/

section Branches

variable {i : Instr} {c : Cond} {back : Bool} {im : BitVec 6}

/-- Taken, a branch does what JMP does (R335, R350). -/
theorem exec_branch_of_condHolds (hi : i.shape = .branch c back im) {s : State} (h : condHolds c s.status = true) :
    exec i s = exec (.jmp back im) s := by
  rw [exec_eq_execShape, hi]
  exact if_pos h

/-- Not taken, it changes nothing (R335). -/
theorem exec_branch_of_not_condHolds (hi : i.shape = .branch c back im) {s : State}
    (h : condHolds c s.status = false) : exec i s = .next s := by
  rw [exec_eq_execShape, hi]
  exact if_neg (Bool.eq_false_iff.1 h)

/-- The first field of a word is its bits 15:12 (R122). -/
theorem opField_mkWord (op : BitVec 4) (rd m : BitVec 3) (lo : BitVec 6) : opField (mkWord op rd m lo) = op :=
  (BitVec.extractLsb'_append_eq_of_le (by decide)).trans
    ((BitVec.extractLsb'_append_eq_of_le (by decide)).trans BitVec.extractLsb'_append_eq_left)

/-- A branch is one word, with the COND code of its condition in bits 15:12 (R134, R135). -/
theorem encode_branch (hi : i.shape = .branch c back im) (p : Params) :
    ∃ w : Word, encode p i = [w] ∧ w.extractLsb' 12 4 = c.num := by
  rw [encode, hi]
  exact ⟨_, rfl, opField_mkWord c.num _ _ _⟩

/-- A branch by its COND code and its condition. -/
theorem branch_done (hi : i.shape = .branch c back im) (p : Params) (s : State) {taken : Bool}
    (htaken : taken = condHolds c s.status) :
    (∃ w : Word, encode p i = [w] ∧ w.extractLsb' 12 4 = c.num) ∧
      (taken = true → exec i s = exec (.jmp back im) s) ∧ (taken = false → exec i s = .next s) :=
  ⟨encode_branch hi p, fun h => exec_branch_of_condHolds hi (htaken ▸ h),
    fun h => exec_branch_of_not_condHolds hi (htaken ▸ h)⟩

end Branches

/-- Settles O48: the fourteen conditions of the rules are those of the model, code by code. -/
theorem branchConditions : Obligations.BranchConditions := by
  intro p back im s i code taken hrow
  simp only [List.mem_cons, List.not_mem_nil, or_false, Prod.mk.injEq] at hrow
  obtain ⟨rfl, rfl, rfl⟩ | ⟨rfl, rfl, rfl⟩ | ⟨rfl, rfl, rfl⟩ | ⟨rfl, rfl, rfl⟩ | ⟨rfl, rfl, rfl⟩ | ⟨rfl, rfl, rfl⟩ |
    ⟨rfl, rfl, rfl⟩ | ⟨rfl, rfl, rfl⟩ | ⟨rfl, rfl, rfl⟩ | ⟨rfl, rfl, rfl⟩ | ⟨rfl, rfl, rfl⟩ | ⟨rfl, rfl, rfl⟩ |
    ⟨rfl, rfl, rfl⟩ | ⟨rfl, rfl, rfl⟩ := hrow
  · exact branch_done (c := .cc) rfl p s (by simp [condHolds])
  · exact branch_done (c := .cs) rfl p s (by simp [condHolds])
  · exact branch_done (c := .sc) rfl p s (by simp [condHolds])
  · exact branch_done (c := .ss) rfl p s (by simp [condHolds])
  · exact branch_done (c := .ne) rfl p s (by simp [condHolds])
  · exact branch_done (c := .z) rfl p s (by simp [condHolds])
  · exact branch_done (c := .pl) rfl p s (by simp [condHolds])
  · exact branch_done (c := .mi) rfl p s (by simp [condHolds])
  · exact branch_done (c := .be) rfl p s (by simp [condHolds])
  · exact branch_done (c := .nbe) rfl p s (by simp [condHolds])
  · exact branch_done (c := .le) rfl p s (by simp [condHolds])
  · exact branch_done (c := .nle) rfl p s (by simp [condHolds])
  · exact branch_done (c := .vc) rfl p s rfl
  · exact branch_done (c := .vs) rfl p s (by simp [condHolds, bne, Bool.beq_eq_decide_eq])

/-! ### The exact signed result (R25, R201, R349) -/

/-- `x` is the exact signed result of an operation: the result is its low 16 bits, S its sign, and it has 17 bits. -/
structure ExactSigned (op : AluOp) (a b : Word) (t : Status) (x : Int) : Prop where
  result : specResult op a b t.c = BitVec.ofInt 16 x
  sign : specS op a b t = decide (x < 0)
  lower : -65536 ≤ x
  upper : x < 65536

/-- Of a number of 17 bits, bit 15 differs from the sign where 16 bits do not hold it. -/
theorem msb_ofInt_ne_sign_iff {x : Int} (hlo : -65536 ≤ x) (hhi : x < 65536) :
    (BitVec.ofInt 16 x).msb ≠ decide (x < 0) ↔ x < -32768 ∨ 32767 < x := by
  rw [BitVec.msb_eq_toInt, BitVec.toInt_ofInt, ne_eq, decide_eq_decide, Int.bmod_def]
  split <;> omega

/-- The range of two words as signed numbers. -/
theorem toInt_bounds (a b : Word) :
    -32768 ≤ a.toInt ∧ a.toInt < 32768 ∧ -32768 ≤ b.toInt ∧ b.toInt < 32768 :=
  ⟨BitVec.le_toInt a, BitVec.toInt_lt, BitVec.le_toInt b, BitVec.toInt_lt⟩

theorem ofInt_sub {n : Nat} (x y : Int) : BitVec.ofInt n (x - y) = BitVec.ofInt n x - BitVec.ofInt n y := by
  rw [Int.sub_eq_add_neg, BitVec.ofInt_add, BitVec.ofInt_neg, BitVec.sub_eq_add_neg]

section ExactSigned

variable (a b : Word) (t : Status)

theorem exactSigned_add : ExactSigned .add a b t (a.toInt + b.toInt) := by
  obtain ⟨ha, ha', hb, hb'⟩ := toInt_bounds a b
  refine ⟨?_, rfl, by omega, by omega⟩
  rw [BitVec.ofInt_add, BitVec.ofInt_toInt, BitVec.ofInt_toInt]
  rfl

theorem exactSigned_adc : ExactSigned .adc a b t (a.toInt + b.toInt + t.c.toNat) := by
  obtain ⟨ha, ha', hb, hb'⟩ := toInt_bounds a b
  have hc := t.c.toNat_le
  refine ⟨?_, rfl, by omega, by omega⟩
  rw [BitVec.ofInt_add, BitVec.ofInt_add, BitVec.ofInt_toInt, BitVec.ofInt_toInt, specResult]
  cases t.c with
  | false => exact (BitVec.add_zero _).symm
  | true => rfl

theorem exactSigned_sub : ExactSigned .sub a b t (a.toInt - b.toInt) := by
  obtain ⟨ha, ha', hb, hb'⟩ := toInt_bounds a b
  refine ⟨?_, decide_eq_decide.2 sub_neg.symm, by omega, by omega⟩
  rw [ofInt_sub, BitVec.ofInt_toInt, BitVec.ofInt_toInt]
  rfl

/-- CMP sets the flags of SUB (R208). -/
theorem exactSigned_cmp : ExactSigned .cmp a b t (a.toInt - b.toInt) := by
  obtain ⟨result, sign, lower, upper⟩ := exactSigned_sub a b t
  exact ⟨result, sign, lower, upper⟩

theorem exactSigned_sbc : ExactSigned .sbc a b t (a.toInt - b.toInt - 1 + t.c.toNat) := by
  obtain ⟨ha, ha', hb, hb'⟩ := toInt_bounds a b
  have hc := t.c.toNat_le
  refine ⟨?_, rfl, by omega, by omega⟩
  rw [BitVec.ofInt_add, ofInt_sub, ofInt_sub, BitVec.ofInt_toInt, BitVec.ofInt_toInt, specResult]
  cases t.c with
  | false => exact (BitVec.add_zero _).symm
  | true => exact (BitVec.sub_add_cancel _ _).symm

end ExactSigned

/-! ### Overflow (R25, R348, R349) -/

/-- With a destination that is neither PC nor SR the flags are those of the operation, whether it writes Rd or not. -/
theorem aluEffect_flags {op : AluOp} {g : GReg} {a b : Word} {s t : State} (h : AluEffect op g a b s t)
    (hpc : g ≠ .core .pc) (hsr : g ≠ .core .sr) : AluFlags op a b s t := by
  obtain ⟨hcompares, hwrites, -, -⟩ := h
  by_cases hop : AluCompares op
  · obtain ⟨-, hflags, -, -⟩ := hcompares hop
    exact hflags hpc
  · obtain ⟨-, -, hreg, -⟩ := hwrites hop
    obtain ⟨-, hflags, -⟩ := hreg hpc hsr
    exact hflags

/-- N is bit 15 of the exact result and S its sign, so they differ where 16 bits do not hold it (R349). -/
theorem ExactSigned.n_ne_s_iff {op : AluOp} {a b : Word} {s t : State} {x : Int} (hx : ExactSigned op a b s.status x)
    (hflags : AluFlags op a b s t) : t.status.n ≠ t.status.s ↔ x < -32768 ∨ 32767 < x := by
  obtain ⟨hn, -, hs, -, -, -⟩ := hflags
  have hmsb : t.status.n = (BitVec.ofInt 16 x).msb := by
    rw [hn, hx.result]
    exact (BitVec.msb_eq_getLsbD_last _).symm
  rw [hmsb, hs, hx.sign]
  exact msb_ofInt_ne_sign_iff hx.lower hx.upper

/-- JVS is taken and JVC is not where N differs from S (R348, R349). -/
theorem branches_of_n_ne_s {t : State} (h : t.status.n ≠ t.status.s) (back : Bool) (im : BitVec 6) :
    exec (.jvs back im) t = exec (.jmp back im) t ∧ exec (.jvc back im) t = .next t :=
  ⟨exec_branch_of_condHolds (c := .vs) rfl (bne_iff_ne.2 h),
    exec_branch_of_not_condHolds (c := .vc) rfl (beq_eq_false_iff_ne.2 h)⟩

/-- And the other way round where they agree. -/
theorem branches_of_n_eq_s {t : State} (h : t.status.n = t.status.s) (back : Bool) (im : BitVec 6) :
    exec (.jvs back im) t = .next t ∧ exec (.jvc back im) t = exec (.jmp back im) t :=
  ⟨exec_branch_of_not_condHolds (c := .vs) rfl (bne_eq_false_iff_eq.2 h),
    exec_branch_of_condHolds (c := .vc) rfl (beq_iff_eq.2 h)⟩

/-- An operation of two registers and the branches on its overflow. -/
theorem exec_aluReg_overflow {i : Instr} {op : AluOp} {rd rs : Reg} (hi : i.shape = .aluReg op rd rs) {s : State}
    {x : Int} (hx : ExactSigned op (s.reg rd) (s.reg rs) s.status x) (hpc : rd ≠ .pc) (hsr : rd ≠ .sr) (back : Bool)
    (im : BitVec 6) :
    ∃ t : State, exec i s = .next t ∧ (t.status.n ≠ t.status.s ↔ x < -32768 ∨ 32767 < x) ∧
      (t.status.n ≠ t.status.s → exec (.jvs back im) t = exec (.jmp back im) t ∧ exec (.jvc back im) t = .next t) ∧
      (t.status.n = t.status.s → exec (.jvs back im) t = .next t ∧ exec (.jvc back im) t = exec (.jmp back im) t) := by
  obtain ⟨t, ht, heffect⟩ := exec_aluReg_done hi s
  have hflags := aluEffect_flags heffect (by simpa using hpc) (by simpa using hsr)
  exact ⟨t, ht, hx.n_ne_s_iff hflags, fun h => branches_of_n_ne_s h back im, fun h => branches_of_n_eq_s h back im⟩

/-- Settles O18: each of the five operations has the exact signed result the statement names. -/
theorem overflowIffNDiffersFromS : Obligations.OverflowIffNDiffersFromS := by
  intro p rd rs s back im hpc hsr
  refine ⟨encode_branch (c := .vs) rfl p, fun i exact hrow => ?_⟩
  simp only [List.mem_cons, List.not_mem_nil, or_false, Prod.mk.injEq] at hrow
  obtain ⟨rfl, rfl⟩ | ⟨rfl, rfl⟩ | ⟨rfl, rfl⟩ | ⟨rfl, rfl⟩ | ⟨rfl, rfl⟩ := hrow
  · exact exec_aluReg_overflow rfl (exactSigned_add _ _ _) hpc hsr back im
  · exact exec_aluReg_overflow rfl (exactSigned_adc _ _ _) hpc hsr back im
  · exact exec_aluReg_overflow rfl (exactSigned_sub _ _ _) hpc hsr back im
  · exact exec_aluReg_overflow rfl (exactSigned_sbc _ _ _) hpc hsr back im
  · exact exec_aluReg_overflow rfl (exactSigned_cmp _ _ _) hpc hsr back im

/-! ### RETF (R330, R333)

The two pops of RETF are loads of the two words above SP, in either order with the steps of SP and the write of SR. -/

/-- A step of SP and a load do not meet, so their order does not show. -/
theorem stepStack_load (s : State) (d : Int) (a : Addr) :
    (s.stepStack (.core .sp) d).load a = ((s.load a).1, (s.load a).2.stepStack (.core .sp) d) := by
  by_cases hv : s.cfg.ver = .v13 <;> simp only [State.stepStack, load_cfg, hv, if_true, if_false] <;> rfl

/-- Nor do a step of SP and a write of SR. -/
theorem setGreg_sr_stepStack (s : State) (v : Word) (d : Int) :
    (s.setGreg (.core .sr) v).stepStack (.core .sp) d = (s.stepStack (.core .sp) d).setGreg (.core .sr) v := by
  simp only [State.stepStack, setGreg_cfg]
  split_ifs <;> rfl

/-- A pop loads the word above SP and steps SP onto it (R330). -/
theorem pop_eq (s : State) :
    s.pop = ((s.load (stackUp s (.core .sp) 1)).1, (s.load (stackUp s (.core .sp) 1)).2.stepStack (.core .sp) 1) :=
  (popStep_load s (.core .sp)).trans (stepStack_load s 1 _)

/-- The load of SR by RETF. -/
def farSr (s : State) : Word × State := s.load (stackUp s (.core .sp) 1)

/-- The load of PC by RETF, after that of SR. -/
def farPc (s : State) : Word × State := (farSr s).2.load (stackUp s (.core .sp) 2)

/-- The state after the two loads of RETF with SP moved over both words. -/
def farPopped (s : State) : State := ((farPc s).2.stepStack (.core .sp) 1).stepStack (.core .sp) 1

/-- The state of RETF between its two pops. -/
def farSrWritten (s : State) : State := ((farSr s).2.stepStack (.core .sp) 1).setGreg (.core .sr) (farSr s).1

theorem setSr_pop (s : State) : s.pop.2.setSr s.pop.1 = farSrWritten s := by
  rw [pop_eq]
  rfl

theorem farSrWritten_pop (s : State) :
    (farSrWritten s).pop = ((farPc s).1, (farPopped s).setGreg (.core .sr) (farSr s).1) := by
  have hup : stackUp (farSrWritten s) (.core .sp) 1 = stackUp s (.core .sp) 2 := stepStack_up (farSr s).2 (.core .sp) 1
  have hload : (farSrWritten s).load (stackUp s (.core .sp) 2) =
      ((farPc s).1, ((farPc s).2.stepStack (.core .sp) 1).setGreg (.core .sr) (farSr s).1) :=
    congrArg (fun y => (y.1, y.2.setGreg (.core .sr) (farSr s).1)) (stepStack_load (farSr s).2 1 _)
  rw [pop_eq, hup, hload, setGreg_sr_stepStack]
  rfl

/-- RETF loads the two words, moves SP over them and writes SR and PC. -/
theorem returnFar_eq (s : State) :
    s.returnFar = ((farPopped s).setGreg (.core .sr) (farSr s).1).setGreg (.core .pc) (farPc s).1 :=
  calc s.returnFar
      _ = (s.pop.2.setSr s.pop.1).pop.2.setReg .pc (s.pop.2.setSr s.pop.1).pop.1 := rfl
      _ = ((farPopped s).setGreg (.core .sr) (farSr s).1).setGreg (.core .pc) (farPc s).1 := by
        rw [setSr_pop, farSrWritten_pop]
        rfl

/-- Two steps up leave the pointer at the second address up. -/
theorem stepStack_stepStack_upBy (s : State) (g : GReg) :
    StackUpBy g 2 s ((s.stepStack g 1).stepStack g 1) := by
  obtain ⟨hpointer, hss⟩ := stepStack_upBy (s.stepStack g 1) g
  rw [stepStack_up, stepStack_cfg] at hss
  rw [stepStack_up] at hpointer
  refine ⟨hpointer, hss.trans ?_⟩
  split
  · rfl
  · rename_i hv
    rw [stepStack_ss, if_neg hv]

/-- Moving SP keeps the parameters, the pins, FR, MDS, SVC, the shift buffers and the bank not in use. -/
theorem farPopped_core (s : State) : CoreSame s (farPopped s) ∧ (farPopped s).sb = s.sb := by
  obtain ⟨hcore1, hsb1⟩ := stepStack_core (farPc s).2 (.core .sp) 1
  obtain ⟨hcore2, hsb2⟩ := stepStack_core ((farPc s).2.stepStack (.core .sp) 1) (.core .sp) 1
  have hloads : SysSame s (farPc s).2 := sysSame_trans (load_sysSame s _) (load_sysSame (farSr s).2 _)
  exact ⟨coreSame_trans hloads.1 (coreSame_trans hcore1 hcore2), hsb2.trans hsb1⟩

theorem farPopped_upBy (s : State) : StackUpBy (.core .sp) 2 s (farPopped s) :=
  stepStack_stepStack_upBy (farPc s).2 (.core .sp)

theorem farPopped_regs (s : State) (q : GReg) (h : q ≠ .core .sp) : (farPopped s).greg q = s.greg q := by
  rw [farPopped, stepStack_greg_other _ _ _ _ h, stepStack_greg_other _ _ _ _ h, farPc, load_greg, farSr, load_greg]

theorem farPopped_memSame (s : State) : MemSame (farPc s).2 (farPopped s) := by
  simp [MemSame, farPopped]

/-- RETF returns as R333 says. -/
theorem returnFar_returnedFar (s : State) : ReturnedFar s s.returnFar := by
  rw [returnFar_eq]
  obtain ⟨hpointer, hss⟩ := farPopped_upBy s
  have hother (q : GReg) (hsr : q ≠ .core .sr) (hpc : q ≠ .core .pc) :
      (((farPopped s).setGreg (.core .sr) (farSr s).1).setGreg (.core .pc) (farPc s).1).greg q = (farPopped s).greg q :=
    (setGreg_greg_other _ _ _ _ hpc).trans (setGreg_greg_other _ _ _ _ hsr)
  refine ⟨?sr, setGreg_greg_same _ (.core .pc) _, ⟨(hother _ (by decide) (by decide)).trans hpointer, hss⟩,
    fun q hq hsr hpc => (hother q hsr hpc).trans (farPopped_regs s q hq),
    memSame_trans (farPopped_memSame s) (memSame_trans (setGreg_memSame _ _ _) (setGreg_memSame _ _ _))⟩
  case sr => exact (setGreg_greg_other _ (.core .pc) (.core .sr) _ (by decide)).trans (setGreg_greg_same _ _ _)

/-- RETF keeps every special register but SR, PC and SS. -/
theorem returnFar_core (s : State) : CoreSame s s.returnFar ∧ s.returnFar.sb = s.sb := by
  rw [returnFar_eq]
  obtain ⟨hcore, hsb⟩ := farPopped_core s
  obtain ⟨hwrites, -, hwritesSb⟩ := sysSame_trans (setGreg_sysSame (farPopped s) (.core .sr) (farSr s).1)
    (setGreg_sysSame _ (.core .pc) (farPc s).1)
  exact ⟨coreSame_trans hcore hwrites, hwritesSb.trans hsb⟩

/-- The word of RETF decodes to it in every version (R131). -/
theorem decodeWords_retf (p : Params) : decodeWords p [0x9A90#16] = .ok .retf :=
  decode_eq_ok_iff.2 ⟨.retf, if_pos (by decide), rfl, rfl⟩

/-- Settles O52: RETF is the two pops of R333. -/
theorem retfPopsSrAndPc : Obligations.RetfPopsSrAndPc :=
  ⟨fun s => ⟨s.returnFar, rfl, returnFar_returnedFar s, returnFar_core s⟩, fun p => ⟨rfl, decodeWords_retf p⟩⟩

end Sys2Proof.Proofs

namespace Sys2Proof.Proofs

open Sys2Proof Sys2Proof.Machine Sys2Proof.Laws

/-! ### The two interrupt enables (R362 to R364)

Each instruction carries its enables as bits of its word: F in bit 1, I in bit 0. -/

section Enables

variable (p : Params) (on f i : Bool) (s : State)

theorem exec_fiq : exec (.fiq on) s = .next { s with flags := { s.flags with f := on } } :=
  exec_eq_execShape (.fiq on) s

theorem exec_irq : exec (.irq on) s = .next { s with flags := { s.flags with i := on } } :=
  exec_eq_execShape (.irq on) s

theorem exec_int : exec (.int f i) s = .next { s with flags := { s.flags with f := f, i := i } } :=
  exec_eq_execShape (.int f i) s

/-- A word of the mode group ends in its six low bits (R133). -/
theorem modeWord_eq_append (lo : BitVec 6) : modeWord lo = 0b1111000101#10 ++ lo := by
  rw [modeWord, mkWord]
  congr 1

/-- The word of FIQ holds F in bit 1 (R362). -/
theorem encode_fiq : encode p (.fiq on) = [0b1111000101#10 ++ (0b0011#4 ++ bit on ++ 0b0#1)] :=
  congrArg (fun w => [w]) (modeWord_eq_append _)

/-- The word of IRQ holds I in bit 0 (R363). -/
theorem encode_irq : encode p (.irq on) = [0b1111000101#10 ++ (0b00100#5 ++ bit on)] :=
  congrArg (fun w => [w]) (modeWord_eq_append _)

/-- The word of INT holds F in bit 1 and I in bit 0 (R364). -/
theorem encode_int : encode p (.int f i) = [0b1111000101#10 ++ (0b0000#4 ++ bit f ++ bit i)] :=
  congrArg (fun w => [w]) (modeWord_eq_append _)

end Enables

/-- The reset state has both enables at their default value 0 (R362, R363). -/
theorem reset_enables : State.reset.flags.f = false ∧ State.reset.flags.i = false :=
  ⟨rfl, rfl⟩

/-- Settles O44: each enable instruction writes its own bits of FR, and its printed words are those its bits give. -/
theorem enableInstructions : Obligations.EnableInstructions := fun p on f i s =>
  ⟨exec_fiq on s, exec_irq on s, exec_int f i s,
    encode_fiq p true, encode_fiq p false,
    encode_irq p true, encode_irq p false,
    encode_int p false false, encode_int p false true, encode_int p true false, encode_int p true true,
    reset_enables⟩

end Sys2Proof.Proofs

namespace Sys2Proof.Proofs

open Sys2Proof Sys2Proof.Machine Sys2Proof.Laws

/-! ### The operands that stop a pointer update (R87, R413, D17)

The counterpart of `exec_aluInd_done` and `exec_extInd_done`: the pairs those two leave out. -/

section PointerConflict

variable {i : Instr} {op : AluOp} {rd rs : Reg} {rx : XReg} {d : Bool} {m : PtrMode}

/-- The model refuses the core pairs the spec refuses, where the pointer moves (R87). -/
theorem ptrConflict_of_moving (hm : m ≠ .keep) (h : rs = rd ∨ rs = .sr ∨ rs = .pc) : ptrConflict m rd rs = true := by
  rcases h with rfl | rfl | rfl <;> simp [ptrConflict, hm]

theorem exec_aluInd_refused (hc : ptrConflict m rd rs = true) (s : State) (h : i.shape = .aluInd op rd d m rs) :
    exec i s = .refused .pointerConflict := by
  rw [exec_eq_execShape, h]
  exact if_pos hc

theorem exec_storeInd_refused (hc : ptrConflict m rd rs = true) (s : State) :
    exec (.storeInd rd d m rs) s = .refused .pointerConflict := if_pos hc

theorem exec_extInd_refused (hm : m ≠ .keep) (s : State) (h : i.shape = .extInd op rx d m rx) :
    exec i s = .refused .pointerConflict := by
  rw [exec_eq_execShape, h]
  exact if_pos ⟨hm, rfl⟩

theorem exec_extStoreInd_refused (hm : m ≠ .keep) (s : State) :
    exec (.extStoreInd rx d m rx) s = .refused .pointerConflict := if_pos ⟨hm, rfl⟩

end PointerConflict

/-! ### The registers of a PUSH or POP (R172, R173, R417, R418) -/

/-- A register that a list holds at some place is in the list. -/
theorem mem_of_getElem_eq {l : List GReg} {q : Nat → GReg} (hq : ∀ i : Nat, (h : i < l.length) → l[i] = q i) {i : Nat}
    (hi : i < l.length) : q i ∈ l := hq i hi ▸ List.getElem_mem hi

section Sets

variable {rd : Reg} {rx : XReg} {n fld : BitVec 3} {k : Nat}

theorem regPlus_mem_pushSet (hn : n.toNat ≤ rd.num.toNat + 1) (hk : k < n.toNat) : regPlus rd (-k) ∈ pushSet rd n := by
  have hlen : (pushSet rd n).reverse.length = n.toNat := by rw [List.length_reverse, pushSet, length_coreRange]
  exact List.mem_reverse.1 (mem_of_getElem_eq (getElem_pushSet_reverse rd n hn) (hlen ▸ hk))

theorem xregAt_mem_extPushSet (hn : n.toNat ≤ rx.num.toNat + 1) (hk : k < n.toNat) :
    xregAt (rx.num.toNat - k) ∈ extPushSet rx n := by
  have hlen : (extPushSet rx n).reverse.length = n.toNat := by rw [List.length_reverse, extPushSet, length_extRange]
  exact List.mem_reverse.1 (mem_of_getElem_eq (getElem_extPushSet_reverse rx n hn) (hlen ▸ hk))

/-- The registers of a POP in the order they are loaded, from `Rd + 1` (R173). -/
theorem getElem_popSet (rd : Reg) (n : BitVec 3) (i : Nat) (h : i < (popSet rd n).length) :
    (popSet rd n)[i] = regPlus rd (i + 1 : Nat) := by
  have hnum : rd.num.toNat + 1 + i = rd.num.toNat + (i + 1) := by omega
  simp only [popSet, getElem_coreRange, regPlus, hnum, ← Int.natCast_add, BitVec.ofInt_natCast]

/-- The registers of an ext POP in the order they are loaded (R418). -/
theorem getElem_extPopSet (p : Params) (fld n : BitVec 3) (i : Nat) (h : i < (extPopSet p fld n).length) :
    (extPopSet p fld n)[i] = xregAt (extPopFirst p fld + i) := by
  simp only [extPopSet, getElem_extRange, xregAt, ← Int.natCast_add, BitVec.ofInt_natCast]

theorem regPlus_mem_popSet (h1 : 1 ≤ k) (hk : k ≤ n.toNat) : regPlus rd k ∈ popSet rd n := by
  obtain ⟨i, rfl⟩ := Nat.exists_eq_add_of_le' h1
  have hlen : (popSet rd n).length = n.toNat := length_coreRange _ _
  exact mem_of_getElem_eq (q := fun i => regPlus rd (i + 1 : Nat)) (getElem_popSet rd n) (hlen ▸ hk)

theorem xregAt_mem_extPopSet (p : Params) (hk : k < n.toNat) : xregAt (extPopFirst p fld + k) ∈ extPopSet p fld n := by
  have hlen : (extPopSet p fld n).length = n.toNat := length_extRange _ _
  exact mem_of_getElem_eq (getElem_extPopSet p fld n) (hlen ▸ hk)

/-- The first register of an ext POP where the field is one less than it (D24). -/
theorem extPopFirst_minusOne {p : Params} (h : p.extPop = .minusOne) : extPopFirst p fld = (fld.toNat + 1) % 8 := by
  rw [extPopFirst, h]
  exact BitVec.toNat_add fld 1#3

/-- The first register of an ext POP where the field is its number (D24). -/
theorem extPopFirst_direct {p : Params} (h : p.extPop = .direct) : extPopFirst p fld = fld.toNat := by
  rw [extPopFirst, h]

end Sets

/-! ### The sets that stop PUSH and POP (R172, R173, R417, R418, D8) -/

section RefusedSets

variable {rd rs : Reg} {rx : XReg} {rb : GReg} {n fld : BitVec 3} {k : Nat}

/-- A set that lies in the register file and has a register passes the test of its bounds. -/
theorem not_emptySet_or_lt {a b : Nat} (hk : k < n.toNat) (h : b ≤ a) : ¬ (n = 0#3 ∨ a < b) := by
  rintro (rfl | hlt)
  · exact Nat.not_lt_zero k hk
  · exact Nat.not_lt.2 h hlt

theorem exec_push_refusedSet (h : n = 0#3 ∨ rd.num.toNat + 1 < n.toNat) (s : State) :
    exec (.push rd n rs) s = .refused .pushPopSet := if_pos h

theorem exec_pop_refusedSet (h : n = 0#3 ∨ 7 < rd.num.toNat + n.toNat) (s : State) :
    exec (.pop rd n rs) s = .refused .pushPopSet := if_pos h

theorem exec_extPush_refusedSet (h : n = 0#3 ∨ rx.num.toNat + 1 < n.toNat) (s : State) :
    exec (.extPush n rx rb) s = .refused .pushPopSet := if_pos h

theorem exec_extPop_refusedSet (s : State) (h : n = 0#3 ∨ 8 < extPopFirst s.cfg fld + n.toNat) :
    exec (.extPop n fld rb) s = .refused .pushPopSet := if_pos h

theorem exec_push_pointerInSet (s : State) (hn : n.toNat ≤ rd.num.toNat + 1) (hk : k < n.toNat)
    (hrs : regPlus rd (-k) = .core rs) : exec (.push rd n rs) s = .refused .pointerInSet :=
  (if_neg (not_emptySet_or_lt hk hn)).trans (if_pos (hrs ▸ regPlus_mem_pushSet hn hk))

theorem exec_pop_pointerInSet (s : State) (hn : rd.num.toNat + n.toNat ≤ 7) (h1 : 1 ≤ k) (hk : k ≤ n.toNat)
    (hrs : regPlus rd k = .core rs) : exec (.pop rd n rs) s = .refused .pointerInSet :=
  (if_neg (not_emptySet_or_lt (Nat.lt_of_lt_of_le h1 hk) hn)).trans (if_pos (hrs ▸ regPlus_mem_popSet h1 hk))

theorem exec_extPush_pointerInSet (s : State) (hn : n.toNat ≤ rx.num.toNat + 1) (hk : k < n.toNat)
    (hrb : rb = xregAt (rx.num.toNat - k)) : exec (.extPush n rx rb) s = .refused .pointerInSet :=
  (if_neg (not_emptySet_or_lt hk hn)).trans (if_pos (hrb ▸ xregAt_mem_extPushSet hn hk))

theorem exec_extPop_pointerInSet (s : State) (hn : extPopFirst s.cfg fld + n.toNat ≤ 8) (hk : k < n.toNat)
    (hrb : rb = xregAt (extPopFirst s.cfg fld + k)) : exec (.extPop n fld rb) s = .refused .pointerInSet :=
  (if_neg (not_emptySet_or_lt hk hn)).trans (if_pos (hrb ▸ xregAt_mem_extPopSet s.cfg hk))

end RefusedSets

/-- A word of no ext row has no meaning after the extension word (R410, D2). -/
theorem exec_extPrefix (e : Word) (s : State) : exec (.extPrefix e) s = .refused .extUnassigned := rfl

/-- Settles O20: the first test of a refused pointer form, and the first or second test of a refused set, answers. -/
theorem refusedOperandsStop : Obligations.RefusedOperandsStop := by
  intro rd rs rx rb fld d m n e s
  refine ⟨fun hm hrs => ?coreInd, fun hm => ?extInd, fun h => exec_push_refusedSet h s, fun h => exec_pop_refusedSet h s,
    fun _ => exec_push_pointerInSet s, fun _ => exec_pop_pointerInSet s, fun h => exec_extPush_refusedSet h s,
    fun _ => exec_extPush_pointerInSet s, ?extPop, exec_extPrefix e s⟩
  case coreInd =>
    have hc := ptrConflict_of_moving hm hrs
    have alu {i : Instr} (op : AluOp) := exec_aluInd_refused (i := i) (op := op) (d := d) hc s
    exact List.forall_iff_forall_mem.1 ⟨alu .add rfl, alu .adc rfl, alu .sub rfl, alu .sbc rfl, alu .cmp rfl,
      alu .neg rfl, alu .xor rfl, alu .load rfl, alu .or rfl, alu .and rfl, alu .test rfl, exec_storeInd_refused hc s⟩
  case extInd =>
    have alu {i : Instr} (op : AluOp) := exec_extInd_refused (i := i) (op := op) (rx := rx) (d := d) hm s
    exact List.forall_iff_forall_mem.1 ⟨alu .add rfl, alu .adc rfl, alu .sub rfl, alu .sbc rfl, alu .cmp rfl,
      alu .neg rfl, alu .xor rfl, alu .load rfl, alu .or rfl, alu .and rfl, alu .test rfl, exec_extStoreInd_refused hm s⟩
  case extPop =>
    intro first
    have hfirst : first = extPopFirst s.cfg fld := by
      cases h : s.cfg.extPop with
      | minusOne => simp only [first, h, extPopFirst_minusOne h]
      | direct => simp only [first, h, extPopFirst_direct h]
    rw [hfirst]
    exact ⟨exec_extPop_refusedSet s, fun _ => exec_extPop_pointerInSet s⟩

end Sys2Proof.Proofs

namespace Sys2Proof.Proofs

open Sys2Proof Sys2Proof.Machine Sys2Proof.Laws

/-! ### The vector table (R462 to R465) -/

/-- Where the vector words of [1.0] to [1.2] and [2.0] begin, less their slot, by TEST (R464). -/
def vectorBase (test : BitVec 2) : Nat :=
  if test = 0#2 then 0xFFF0 else if test = 1#2 then 0xFFE0 else if test = 2#2 then 0x7FF0 else 0x7FE0

/-- With a base of all ones the fields of a vector address are `vectorBase` and the slot. -/
theorem onesVector_toNat : ∀ (test : BitVec 2) (slot : BitVec 4),
    (mkAddr 0 (~~~(test.extractLsb' 1 1) ++ 0b1111111111#10 ++ ~~~(test.extractLsb' 0 1) ++ slot)).toNat =
      vectorBase test + slot.toNat := by
  decide

theorem vectorAddr_of_v12_v20 {p : Params} (hv : p.ver = .v12 ∨ p.ver = .v20) (slot : BitVec 4) :
    (vectorAddr p slot).toNat = vectorBase p.test + slot.toNat := by
  obtain h | h := hv <;> simp only [vectorAddr, h, Version.is12Plus, if_true, reduceCtorEq, if_false, onesVector_toNat]

theorem vectorAddr_of_v10_v11 {p : Params} (hv : p.ver = .v10 ∨ p.ver = .v11) (slot : BitVec 4) :
    (vectorAddr p slot).toNat = 0xFFF0 + slot.toNat := by
  obtain h | h := hv <;>
    simp only [vectorAddr, h, Version.is12Plus, Bool.false_eq_true, reduceCtorEq, if_false, onesVector_toNat] <;> rfl

/-- In [1.3] INT_BASE stands between the two bits of TEST (R465). -/
theorem vectorAddr_of_v13 {p : Params} (hv : p.ver = .v13) (slot : BitVec 4) :
    vectorAddr p slot =
      0#6 ++ ~~~(p.test.extractLsb' 1 1) ++ p.intBase ++ ~~~(p.test.extractLsb' 0 1) ++ slot := by
  apply BitVec.eq_of_toNat_eq
  simp only [vectorAddr, hv, Version.is12Plus, if_true, append_toNat_eq, BitVec.ofNat_eq_ofNat]
  omega

/-- The vectors of BREAK, FIQ, RESET and IRQ0 to IRQ7 are the slots 5 to 15. -/
theorem slot_toNat {e : Nat} (h : e < 11) : (BitVec.ofNat 4 (5 + e)).toNat = 5 + e := by
  rw [BitVec.toNat_ofNat]
  omega

/-- Settles O59: each version's table is its formula at the slots 5 to 15. -/
theorem vectorTables : Obligations.VectorTables := by
  refine ⟨fun p e he => ⟨fun hv => ?_, fun hv => ?_, fun hv => vectorAddr_of_v13 hv _⟩, rfl, rfl, rfl, rfl, by decide⟩
  · rw [vectorAddr_of_v12_v20 hv, slot_toNat he]
    refine ⟨fun htest => ?_, fun htest => ?_, fun htest => ?_, fun htest => ?_⟩
    all_goals
      simp only [htest, vectorBase, BitVec.reduceEq, if_true, if_false]
      omega
  · rw [vectorAddr_of_v10_v11 hv, slot_toNat he]
    omega

end Sys2Proof.Proofs

namespace Sys2Proof.Proofs

open Sys2Proof Sys2Proof.Machine Sys2Proof.Laws

/-! ### Which request is taken (R451, R452, R458) -/

/-- The search for a line finds the lowest requesting one of the lines it looks at. -/
theorem lowestLine_eq_some_iff (lines : BitVec 8) (n : BitVec 3) {fuel k : Nat} (h : k + fuel ≤ 8) :
    lowestLine lines fuel k = some n ↔ k ≤ n.toNat ∧ n.toNat < k + fuel ∧ lines.getLsbD n.toNat = true ∧
      ∀ m : Nat, k ≤ m → m < n.toNat → lines.getLsbD m = false := by
  induction fuel generalizing k with
  | zero =>
    simp only [lowestLine, reduceCtorEq, false_iff]
    omega
  | succ fuel ih =>
    unfold lowestLine
    by_cases hk : lines.getLsbD k = true
    · rw [if_pos hk, Option.some.injEq]
      constructor
      · rintro rfl
        have hval : (BitVec.ofNat 3 k).toNat = k := by rw [BitVec.toNat_ofNat]; omega
        rw [hval]
        exact ⟨by omega, by omega, hk, fun m h1 h2 => by omega⟩
      · rintro ⟨hle, -, -, hbelow⟩
        have heq : k = n.toNat := by
          by_contra hne
          rw [hbelow k (Nat.le_refl k) (by omega)] at hk
          exact Bool.false_ne_true hk
        rw [heq, BitVec.ofNat_toNat, BitVec.setWidth_eq]
    · rw [if_neg hk, ih (by omega)]
      have hclear : lines.getLsbD k = false := by simpa using hk
      constructor
      · rintro ⟨hle, hlt, hn, hbelow⟩
        refine ⟨by omega, by omega, hn, fun m h1 h2 => ?_⟩
        obtain rfl | h3 := Nat.eq_or_lt_of_le h1
        · exact hclear
        · exact hbelow m h3 h2
      · rintro ⟨hle, hlt, hn, hbelow⟩
        have hne : k ≠ n.toNat := fun e => hk (e ▸ hn)
        exact ⟨by omega, by omega, hn, fun m h1 h2 => hbelow m (by omega) h2⟩

theorem takes_fiq_iff (s : State) : Takes s .fiq ↔ s.takesFiq = true := by
  unfold Takes State.takesFiq
  cases s.cfg.ver <;> simp [and_assoc]

theorem takes_irq_iff (s : State) (n : BitVec 3) : Takes s (.irq n) ↔ s.irqRequest = some n ∧ s.takesIrq n = true := by
  have hlow : lowestLine s.pins.irqLines 8 0 = some n ↔ s.pins.irqLines.getLsbD n.toNat = true ∧
      ∀ m : Nat, m < n.toNat → s.pins.irqLines.getLsbD m = false := by
    have := n.isLt
    rw [lowestLine_eq_some_iff _ _ (by omega)]
    exact ⟨fun h => ⟨h.2.2.1, fun m => h.2.2.2 m (Nat.zero_le m)⟩, fun h => ⟨by omega, by omega, h.1, fun m _ => h.2 m⟩⟩
  unfold Takes State.irqRequest State.takesIrq
  cases s.cfg.ver with
  | v10 | v11 => simp [hlow, and_assoc]
  | v12 | v20 => simp [and_assoc, or_iff_not_imp_left]
  | v13 => simp [and_assoc]

/-- A request is of FIQ or IRQ. -/
theorem takes_cases {s : State} {e : Event} (h : Takes s e) : e = .fiq ∨ ∃ n, e = .irq n := by
  cases e with
  | fiq => exact .inl rfl
  | irq n => exact .inr ⟨n, rfl⟩
  | brk | ade =>
    unfold Takes at h
    cases hv : s.cfg.ver <;> rw [hv] at h <;> exact h.elim

theorem request_of_takes_fiq {s : State} (h : Takes s .fiq) : s.request = some .fiq :=
  if_pos ((takes_fiq_iff s).1 h)

theorem request_of_takes_irq {s : State} {n : BitVec 3} (hf : ¬ Takes s .fiq) (h : Takes s (.irq n)) :
    s.request = some (.irq n) := by
  obtain ⟨hreq, htake⟩ := (takes_irq_iff s n).1 h
  rw [takes_fiq_iff] at hf
  simp only [State.request, hf, hreq, htake, if_true, Bool.false_eq_true, if_false]

theorem request_of_takes_none {s : State} (h : ∀ e : Event, ¬ Takes s e) : s.request = none := by
  have hf := h .fiq
  rw [takes_fiq_iff] at hf
  unfold State.request
  rw [if_neg hf]
  cases hreq : s.irqRequest with
  | none => rfl
  | some n => exact if_neg fun htake => h (.irq n) ((takes_irq_iff s n).2 ⟨hreq, htake⟩)

/-- Where no pin holds the core, a step enters the request sampled, with DMACK low (log 57). -/
theorem step_eq_takeRequest {s : State} {e : Event} (hrun : Running s) (hhold : s.hold = false)
    (hreq : s.request = some e) : step s = .next (({ s with dmack := false } : State).takeRequest e) := by
  obtain ⟨hreset, hstalled, hgranted⟩ := hrun
  have hs : ({ s with dmack := false } : State).sampled = some e := (if_neg (by rw [hhold]; decide)).trans hreq
  simp only [step, hreset, hstalled, hgranted, hs, Bool.false_eq_true, if_false]

/-! ### The entry of a request (R454, R467 to R471) -/

theorem savesFr_eq_savesFr (s : State) (e : Event) : s.savesFr e = SavesFr s e := by
  unfold State.savesFr SavesFr
  cases s.cfg.ver <;> cases e <;> rfl

theorem entryFlags_eq_specEntryFlags (s : State) (e : Event) : s.entryFlags e = specEntryFlags s e := by
  have hpri : ∀ n : BitVec 3, 0b0#1 ++ n = n.setWidth 4 := by decide
  unfold State.entryFlags specEntryFlags
  cases s.cfg.ver <;> cases e <;> simp [Version.is12Plus, hpri]

/-- No entry changes the register bank. -/
theorem specEntryFlags_bnk (s : State) (e : Event) : (specEntryFlags s e).bnk = s.flags.bnk := by
  unfold specEntryFlags
  split <;> (try split) <;> rfl

/-- What an entry leaves on the stack: the return state, and FR where the entry saves it. -/
def entryStack (s : State) (e : Event) : State :=
  if SavesFr s e then s.pushReturn.push s.frWord else s.pushReturn

theorem pushReturn_frWord (s : State) : s.pushReturn.frWord = s.frWord := by
  simp only [State.frWord, State.shiftBuf, pushReturn_flags, pushReturn_sb, pushReturn_svc]

/-- An entry saves its state, then goes through the vector. -/
theorem enter_eq_entryStack {e : Event} (hade : e ≠ .ade) (s : State) :
    s.enter e =
      throughVector e.slot ((entryStack s e).entryFlags e) ((entryStack s e).entrySvc e) (entryStack s e) := by
  have hsave : s.pushReturn.savesFr e = SavesFr s e := by
    simp only [savesFr_eq_savesFr, SavesFr, pushReturn_cfg, pushReturn_flags]
  rw [entryStack, ← hsave, ← pushReturn_frWord]
  simp only [State.enter, State.markAde, hade, if_false]
  rfl

theorem entryStack_core (s : State) (e : Event) : CoreSame s (entryStack s e) ∧ (entryStack s e).sb = s.sb := by
  obtain ⟨hcore, hsb⟩ := pushReturn_core s
  unfold entryStack
  split
  · obtain ⟨hcore', hsb'⟩ := pushVia_core s.pushReturn (.core .sp) s.frWord
    exact ⟨coreSame_trans hcore hcore', hsb'.trans hsb⟩
  · exact ⟨hcore, hsb⟩

theorem entryStack_status (s : State) (e : Event) : (entryStack s e).status = s.status := by
  unfold entryStack
  split
  · exact (pushVia_status _ _ _ (by decide)).trans (pushReturn_status s)
  · exact pushReturn_status s

theorem entryStack_laterOn (s : State) (e : Event) : LaterOn s (entryStack s e) := by
  unfold entryStack
  split
  · exact laterOn_trans (pushReturn_laterOn s) (pushVia_laterOn _ _ _)
  · exact pushReturn_laterOn s

/-- The stack below the return state. -/
theorem pushReturn_down (s : State) (i : Nat) :
    stackDown s.pushReturn (.core .sp) i = stackDown s (.core .sp) (i + 2) := by
  unfold State.pushReturn State.push
  rw [pushVia_down, pushVia_down]

/-- A word pushed on a saved return state is the third word saved. -/
theorem pushReturn_push_saved (s : State) (w : Word) (hm : Memory.wf s.mem = true) :
    ReturnStateSaved (some w) s (s.pushReturn.push w) := by
  obtain ⟨h0, h1, -, hmem, hdown, hregs⟩ := pushReturn_saved s hm
  have hbytes : MemSameButStack (.core .sp) 2 s s.pushReturn := hmem
  have hwf : Memory.wf s.pushReturn.mem = true := pushVia_wf _ _ _ (pushVia_wf _ _ _ hm)
  have hlater := pushReturn_laterOn s
  have hfirst := pushReturn_down s 0
  have keep {i : Nat} (hi : i < 2) (k : Kept s (stackDown s (.core .sp) i)) :
      (s.pushReturn.push w).readWord (stackDown s (.core .sp) i) =
        s.pushReturn.readWord (stackDown s (.core .sp) i) := by
    have hsteady := Kept.steady (Kept.later hlater k)
    refine readWord_congr _ (pushVia_cfg _ _ _) hsteady.1 fun b hb => pushVia_byte _ _ _ b (fun e => ?_) ?_
    · rw [hfirst] at e
      exact stackDown_ne s (.core .sp) i 2 (by omega) (by omega) (by omega) (BitVec.eq_of_toNat_eq (hb.symm.trans e))
    · rw [ofNat_half _ b hb]
      exact hsteady.2
  have hthird : Kept s (stackDown s (.core .sp) 2) →
      (s.pushReturn.push w).readWord (stackDown s (.core .sp) 2) = w := by
    rw [← hfirst]
    exact fun k => pushVia_word s.pushReturn (.core .sp) w hwf (Kept.later hlater k)
  have hbytes3 : MemSameButStack (.core .sp) 3 s (s.pushReturn.push w) := by
    intro b hb hd
    have hout : b / 2 ≠ (stackDown s.pushReturn (.core .sp) 0).toNat := hfirst ▸ hb 2 (by decide)
    exact (pushVia_byte _ _ _ b hout fun e => hd (hlater.2 _ e)).trans (hbytes b (fun i hi => hb i (by omega)) hd)
  have hdown3 : StackDownBy (.core .sp) 3 s (s.pushReturn.push w) := by
    obtain ⟨hsp, hss⟩ := pushVia_downBy s.pushReturn (.core .sp) w
    rw [pushReturn_down] at hsp hss
    refine ⟨hsp, hss.trans ?_⟩
    rw [pushReturn_cfg, hdown.2]
    split <;> rfl
  exact ⟨fun k => (keep (by decide) k).trans (h0 k), fun k => (keep (by decide) k).trans (h1 k),
    fun v hv k => (hthird k).trans (Option.some.inj hv), hbytes3, hdown3,
    fun q hq hsr hpc => (pushVia_greg_other _ _ _ _ hq).trans (hregs q hq hsr hpc)⟩

theorem entryStack_saved (s : State) (e : Event) (hm : Memory.wf s.mem = true) :
    ReturnStateSaved (if SavesFr s e then some s.frWord else none) s (entryStack s e) := by
  unfold entryStack
  split
  · exact pushReturn_push_saved s s.frWord hm
  · exact pushReturn_saved s hm

theorem throughVector_otherBank {slot : BitVec 4} {fl : FlagReg} (svc : List Level) (u : State)
    (hb : fl.bnk = u.flags.bnk) : (throughVector slot fl svc u).otherBank = u.otherBank := by
  simp only [State.otherBank, State.bank, throughVector, State.jump, hb]
  rfl

/-- What an entry makes of FR and SVC depends on the interrupted state. -/
theorem entryStack_entryFlags (s : State) (e : Event) : (entryStack s e).entryFlags e = specEntryFlags s e := by
  obtain ⟨⟨hcfg, -, hflags, -⟩, -⟩ := entryStack_core s e
  rw [entryFlags_eq_specEntryFlags]
  simp only [specEntryFlags, hcfg, hflags]

/-- The entry of an FIQ or IRQ. -/
theorem enter_entered {e : Event} (he : e = .fiq ∨ ∃ n, e = .irq n) (s : State) (hm : Memory.wf s.mem = true) :
    Entered e s (s.enter e) ∧ (s.enter e).dmack = s.dmack := by
  have hade : e ≠ .ade := by rintro rfl; simp at he
  have hsvc (u : State) : u.entrySvc e = eventLevel e :: u.svc := by obtain rfl | ⟨n, rfl⟩ := he <;> rfl
  have hsaved := entryStack_saved s e hm
  have hlater := entryStack_laterOn s e
  have hstatus := entryStack_status s e
  have hcore := entryStack_core s e
  have hbnk := specEntryFlags_bnk s e
  rw [enter_eq_entryStack hade, entryStack_entryFlags, hsvc]
  generalize entryStack s e = u at hsaved hlater hstatus hcore ⊢
  obtain ⟨⟨hcfg, hpins, hflags, hmds, hsvcSame, hdmack, -, hfree, hbank⟩, hsb⟩ := hcore
  have hsaved' : ReturnStateSaved (if SavesFr s e then some s.frWord else none) s
      (throughVector e.slot (specEntryFlags s e) (eventLevel e :: u.svc) u) :=
    returnStateSaved_later hsaved hlater (throughVector_readWord _ _ _ u) (throughVector_memSameBarDma _ _ _ u)
      (throughVector_regsSame _ _ _ u (hbnk.trans (congrArg FlagReg.bnk hflags.symm))) rfl
  have hvector := atVector_congr hcfg (throughVector_atVector e.slot (specEntryFlags s e) (eventLevel e :: u.svc) u)
  have hds : FlagsAndDsSame s (throughVector e.slot (specEntryFlags s e) (eventLevel e :: u.svc) u) := by
    rw [FlagsAndDsSame, ← hstatus]
    exact ⟨rfl, rfl, rfl, rfl, rfl⟩
  refine ⟨⟨hsaved', hvector, hds, rfl, congrArg _ hsvcSame, hcfg, hpins, hsb, hmds, hfree, ?_⟩, hdmack⟩
  exact (throughVector_otherBank _ u (hbnk.trans (congrArg FlagReg.bnk hflags.symm))).trans hbank

/-- A request taken is entered, and only that of an FIQ keeps the next step from looking (R476). -/
theorem step_entered {s : State} {e : Event} (hrun : Running s) (hm : Memory.wf s.mem = true) (hhold : s.hold = false)
    (htakes : Takes s e) (hreq : s.request = some e) :
    ∃ t : State, step s = .next t ∧ Entered e s t ∧ t.hold = e.holdsNext ∧ t.dmack = false := by
  obtain ⟨hentered, hdmack⟩ := enter_entered (takes_cases htakes) { s with dmack := false } hm
  exact ⟨_, step_eq_takeRequest hrun hhold hreq, hentered, rfl, hdmack⟩

/-- Settles O56: the model's choice of a request is that of R452, and an entry is what the vector and the stack give. -/
theorem requestsAreTaken : Obligations.RequestsAreTaken := by
  intro s hrun hm
  refine ⟨fun hhold hfiq => step_entered hrun hm hhold hfiq (request_of_takes_fiq hfiq),
    fun n hhold hnot hirq => step_entered hrun hm hhold hirq (request_of_takes_irq hnot hirq),
    fun hnone => step_eq_runNext hrun ?_⟩
  unfold State.sampled
  split
  · rfl
  · next hhold => exact request_of_takes_none (hnone.resolve_left hhold)

end Sys2Proof.Proofs

namespace Sys2Proof.Proofs

open Sys2Proof Sys2Proof.Machine Sys2Proof.Laws

/-! ### What the environment holds: parameters, pins and memory that is no RAM (R6, R100, R111, R458) -/

/-- A write on the bus changes no word but in RAM. -/
theorem bus_write_notRam (p : Params) (b : Bus) (a r : Addr) (v : Word) (h : p.backing r ≠ .ram) :
    Memory.readWord (b.write p a v).mem r = Memory.readWord b.mem r := by
  unfold Bus.write
  split
  · next ha =>
    have hne : r ≠ a := fun e => h (e ▸ ha)
    exact readWord_writeWord_other _ _ _ _ hne
  all_goals rfl

/-- A byte written on the bus changes no word but in RAM. -/
theorem bus_writeByte_notRam (p : Params) (b : Bus) (e : BitVec 23) (r : Addr) (v : BitVec 8)
    (h : p.backing r ≠ .ram) : Memory.readWord (b.writeByte p e v).mem r = Memory.readWord b.mem r := by
  unfold Bus.writeByte
  split
  · next ha =>
    have hne : r.toNat ≠ e.toNat / 2 := fun hr => h (by
      rwa [wordOf_eq_ofNat, ofNat_half r e.toNat hr.symm] at ha)
    exact readWord_congr_bytes _ _ r (readByte_writeByte_other _ _ _ _ (by omega))
      (readByte_writeByte_other _ _ _ _ (by omega))
  all_goals rfl

/-- The DMA master's accesses change no word but in RAM. -/
theorem bus_dma_notRam (p : Params) (l : List DmaAccess) (b : Bus) (r : Addr) (h : p.backing r ≠ .ram) :
    Memory.readWord (l.foldl (Bus.dmaAccess p) b).mem r = Memory.readWord b.mem r := by
  induction l generalizing b with
  | nil => rfl
  | cons x l ih =>
    rw [List.foldl_cons, ih]
    cases x with
    | read a => exact congrArg (fun m => Memory.readWord m r) (bus_noteRead_mem p b a)
    | write a v => exact bus_write_notRam p b a r v h

/-- `t` has the parameters, the pins and DMACK of `s`, and its memory wherever that is no RAM. -/
structure EnvSame (s t : State) : Prop where
  cfg : t.cfg = s.cfg
  pins : t.pins = s.pins
  dmack : t.dmack = s.dmack
  mem : ∀ a : Addr, s.cfg.backing a ≠ .ram → Memory.readWord t.mem a = Memory.readWord s.mem a

namespace EnvSame

variable {s t u : State}

theorem refl (s : State) : EnvSame s s := ⟨rfl, rfl, rfl, fun _ _ => rfl⟩

theorem trans (h : EnvSame s t) (k : EnvSame t u) : EnvSame s u :=
  ⟨k.cfg.trans h.cfg, k.pins.trans h.pins, k.dmack.trans h.dmack,
    fun a ha => (k.mem a (h.cfg ▸ ha)).trans (h.mem a ha)⟩

/-- A change of registers, SR, FR or another field of the core's own. -/
theorem own (h : EnvSame s t) (hown : u.cfg = t.cfg ∧ u.pins = t.pins ∧ u.dmack = t.dmack ∧ u.mem = t.mem) :
    EnvSame s u := by
  obtain ⟨hcfg, hpins, hdmack, hmem⟩ := hown
  exact h.trans ⟨hcfg, hpins, hdmack, fun _ _ => by rw [hmem]⟩

/-! ### Accesses -/

theorem dmaPoint (h : EnvSame s t) : EnvSame s t.dmaPoint :=
  h.trans ⟨rfl, rfl, rfl, fun a ha => bus_dma_notRam t.cfg t.dmaNow t.bus a ha⟩

theorem load {a : Addr} (h : EnvSame s t) : EnvSame s (t.load a).2 := h.dmaPoint.own ⟨rfl, rfl, rfl, rfl⟩

theorem loadByte {e : BitVec 23} (h : EnvSame s t) : EnvSame s (t.loadByte e).2 := h.dmaPoint.own ⟨rfl, rfl, rfl, rfl⟩

theorem storeWord {a : Addr} {v : Word} (h : EnvSame s t) : EnvSame s (t.storeWord a v) :=
  h.dmaPoint.trans ⟨rfl, rfl, rfl, fun r hr => bus_write_notRam t.cfg t.dmaPoint.bus a r v hr⟩

theorem storeByte {e : BitVec 23} {v : BitVec 8} (h : EnvSame s t) : EnvSame s (t.storeByte e v) :=
  h.dmaPoint.trans ⟨rfl, rfl, rfl, fun r hr => bus_writeByte_notRam t.cfg t.dmaPoint.bus e r v hr⟩

/-! ### Registers, flags and the ALU -/

theorem setReg {r : Reg} {v : Word} (h : EnvSame s t) : EnvSame s (t.setReg r v) := h.own (by simp)

theorem setGreg {g : GReg} {v : Word} (h : EnvSame s t) : EnvSame s (t.setGreg g v) := h.own (by simp)

theorem setMr {v : BitVec 32} (h : EnvSame s t) : EnvSame s (t.setMr v) := h.own (by simp)

theorem setSr {w : Word} (h : EnvSame s t) : EnvSame s (t.setSr w) := h.own (by simp)

theorem setDs {p : Page} (h : EnvSame s t) : EnvSame s (t.setDs p) := h.own (by simp)

theorem jump {a : Addr} (h : EnvSame s t) : EnvSame s (t.jump a) := h.own (by simp)

theorem setFr {w : Word} (h : EnvSame s t) : EnvSame s (t.setFr w) := h.own (by simp)

theorem setShiftBuf {v : BitVec 4} (h : EnvSame s t) : EnvSame s (t.setShiftBuf v) := h.own (by simp)

theorem freeShiftBuf (h : EnvSame s t) : EnvSame s t.freeShiftBuf := h.own ⟨rfl, rfl, rfl, rfl⟩

theorem setZOfBit {w : Word} {k : BitVec 4} (h : EnvSame s t) : EnvSame s (t.setZOfBit w k) :=
  h.own ⟨rfl, rfl, rfl, rfl⟩

theorem rotateWrite {rd : Reg} {r : Word × Bool} (h : EnvSame s t) : EnvSame s (rotateWrite rd r t) :=
  h.own (by simp [Machine.rotateWrite])

theorem ptrCommit {d : Bool} {m : PtrMode} {g : GReg} (h : EnvSame s t) : EnvSame s (ptrCommit t d m g) :=
  h.own (by simp)

theorem stepStack {g : GReg} {d : Int} (h : EnvSame s t) : EnvSame s (t.stepStack g d) := h.own (by simp)

theorem aluWriteG {op : AluOp} {g : GReg} {a b : Word} (h : EnvSame s t) : EnvSame s (t.aluWriteG op g a b) :=
  h.own (by simp)

theorem aluWrite {op : AluOp} {rd : Reg} {a b : Word} (h : EnvSame s t) : EnvSame s (t.aluWrite op rd a b) :=
  h.own (by simp)

/-- The W = 1 form stores the result, or changes SR alone. -/
theorem aluStore {op : AluOp} {ea : Addr} {a b : Word} (h : EnvSame s t) : EnvSame s (t.aluStore op ea a b) := by
  unfold State.aluStore
  split
  · exact h.storeWord.own ⟨rfl, rfl, rfl, rfl⟩
  · exact h.own ⟨rfl, rfl, rfl, rfl⟩

/-! ### The stack -/

theorem pushVia {g : GReg} {v : Word} (h : EnvSame s t) : EnvSame s (t.pushVia g v) := h.storeWord.stepStack

theorem pushReturn (h : EnvSame s t) : EnvSame s t.pushReturn := h.pushVia.pushVia

theorem pop (h : EnvSame s t) : EnvSame s t.pop.2 := h.stepStack.load

theorem pushRegs {g : GReg} {l : List GReg} (h : EnvSame s t) : EnvSame s (pushRegs g l t) := by
  induction l generalizing t with
  | nil => exact h
  | cons r l ih => exact ih h.pushVia

theorem popFlags {g : GReg} {v : Word} (h : EnvSame s t) : EnvSame s (popFlags t g v) := by
  obtain ⟨⟨⟨hcfg, hpins, -, -, -, hdmack, -⟩, -, -⟩, ⟨hmem, -⟩, -⟩ := popFlags_same t g v
  exact h.own ⟨hcfg, hpins, hdmack, hmem⟩

theorem popRegs {g : GReg} {l : List GReg} (h : EnvSame s t) : EnvSame s (popRegs g l t) := by
  induction l generalizing t with
  | nil => exact h
  | cons r l ih => exact ih h.stepStack.load.setGreg.popFlags

theorem popPage {g : GReg} {l : List GReg} {v : State} (h : EnvSame s t) : EnvSame s (popPage g l v t) := by
  rw [popPage_same]
  exact h.own ⟨rfl, rfl, rfl, rfl⟩

/-! ### Taking an exception and returning -/

theorem throughVector {slot : BitVec 4} {fl : FlagReg} {svc : List Level} (h : EnvSame s t) :
    EnvSame s (throughVector slot fl svc t) :=
  (h.load (a := vectorAddr t.cfg slot)).own ⟨rfl, rfl, rfl, rfl⟩

theorem enter {e : Event} (h : EnvSame s t) : EnvSame s (t.enter e) := by
  have hmark : EnvSame s (t.markAde e) := by
    unfold State.markAde
    split
    · exact h.own ⟨rfl, rfl, rfl, rfl⟩
    · exact h
  have hstack : EnvSame s (if (t.markAde e).pushReturn.savesFr e
      then (t.markAde e).pushReturn.push (t.markAde e).pushReturn.frWord else (t.markAde e).pushReturn) := by
    split
    · exact hmark.pushReturn.pushVia
    · exact hmark.pushReturn
  exact hstack.throughVector (slot := e.slot)

theorem returnFar (h : EnvSame s t) : EnvSame s t.returnFar := by
  unfold State.returnFar
  exact h.pop.setSr.pop.setReg

theorem returnInt (h : EnvSame s t) : EnvSame s t.returnInt := by
  have hfr : EnvSame s (if t.restoresFr then t.pop.2.setFr t.pop.1 else t) := by
    split
    · exact h.pop.setFr
    · exact h
  exact hfr.returnFar.own ⟨rfl, rfl, rfl, rfl⟩

/-! ### Multiplication and division -/

theorem mulsStepD {rd : Reg} (h : EnvSame s t) : EnvSame s (mulsStepD t rd) := by
  rw [mulsStepD_eq]
  exact h.own (by simp [pointerStep])

theorem mulsStepS {rs : Reg} (h : EnvSame s t) : EnvSame s (mulsStepS t rs) := by
  rw [mulsStepS_eq]
  exact h.own (by simp [pointerStep])

theorem firStore {move : Bool} {rd : Reg} {prev : Option Word} (h : EnvSame s t) :
    EnvSame s (firStore t move rd prev) := by
  unfold Machine.firStore
  split
  · exact h
  · split
    · exact h.storeWord
    · exact h

theorem mulsLevels {k : MulKind} {rd rs : Reg} {move : Bool} {n : Nat} {prev : Option Word} {acc : Int}
    (h : EnvSame s t) : EnvSame s (mulsLevels k rd rs move n prev acc t).2 := by
  induction n generalizing t prev acc with
  | zero => exact h
  | succ n ih => exact ih h.load.load.firStore.mulsStepD.mulsStepS

theorem mulsFinish {acc : BitVec 36} (h : EnvSame s t) : EnvSame s (mulsFinish acc t) := by
  obtain ⟨v, n, b, heq, -⟩ := mulsFinish_eq acc t
  rw [heq]
  exact (h.setMr (v := acc.extractLsb' 0 32)).own ⟨rfl, rfl, rfl, rfl⟩

theorem setAq {b : Bool} (h : EnvSame s t) : EnvSame s (t.setAq b) := h.own ⟨rfl, rfl, rfl, rfl⟩

theorem divsStep (h : EnvSame s t) : EnvSame s (divsStep t) := h.setAq.setMr

theorem divqStep (h : EnvSame s t) : EnvSame s (divqStep t) := h.setAq.setMr

theorem divqSteps {n : Nat} (h : EnvSame s t) : EnvSame s (divqSteps n t) := by
  induction n generalizing t with
  | zero => exact h
  | succ n ih => exact ih h.divqStep

/-! ### The byte modes of [1.3] -/

theorem setPairPtr {x : PairReg} {v : BitVec 23} (h : EnvSame s t) : EnvSame s (setPairPtr t x v) := h.setReg.setReg

theorem pairBefore {w : Width} {m : PtrMode} {x : PairReg} (h : EnvSame s t) : EnvSame s (pairBefore t w m x) := by
  cases m with
  | preInc => exact h.setPairPtr
  | keep | postDec | postInc => exact h

theorem pairAfter {w : Width} {m : PtrMode} {x : PairReg} (h : EnvSame s t) : EnvSame s (pairAfter t w m x) := by
  cases m with
  | postInc | postDec => exact h.setPairPtr
  | keep | preInc => exact h

theorem byteLoad {w : Width} {e : BitVec 23} (h : EnvSame s t) : EnvSame s (byteLoad t w e).2 := by
  cases w with
  | byte => exact h.loadByte
  | word => exact h.load

theorem byteStore {w : Width} {e : BitVec 23} {v : Word} (h : EnvSame s t) : EnvSame s (byteStore t w e v) := by
  cases w with
  | byte => exact h.storeByte
  | word => exact h.storeWord

/-! ### Fetch -/

theorem fetchRest {w0 : Word} {i : Instr} {v : State} (h : EnvSame s t) : EnvSame s (v.fetchRest t w0 i).2 := by
  unfold State.fetchRest
  split_ifs
  · exact h
  · dsimp only
    split
    · exact h.load
    · split_ifs
      · exact h.load
      · exact h.load.load

theorem fetchRest13 {i : Instr13} {v : State} (h : EnvSame s t) : EnvSame s (v.fetchRest13 t i).2 := by
  unfold State.fetchRest13
  split_ifs
  · exact h
  · exact h.load

theorem fetch (s : State) : EnvSame s s.fetch.2 := by
  have hfirst := (refl s).load (a := s.seqAddr 0)
  unfold State.fetch
  dsimp only
  split
  · exact hfirst.fetchRest
  · split
    · exact hfirst.fetchRest13
    · exact hfirst

theorem begin {n : Nat} {hold : Bool} (h : EnvSame s t) : EnvSame s (t.begin n hold) := h.own ⟨rfl, rfl, rfl, rfl⟩

end EnvSame

/-! ### What no instruction changes -/

/-- A next state that `o` answers has the environment of `s`. -/
def NextEnvSame (s : State) (o : Out) : Prop := ∀ t : State, o = .next t → EnvSame s t

section Outcomes

variable {s t u : State} {o o' : Out}

theorem nextEnvSame_next (h : EnvSame s t) : NextEnvSame s (.next t) := fun _ e => Host.Outcome.next.inj e ▸ h

theorem nextEnvSame_refused (r : Refusal) : NextEnvSame s (.refused r) := fun _ e => nomatch e

theorem nextEnvSame_ite {c : Prop} [Decidable c] (h : NextEnvSame s o) (h' : NextEnvSame s o') :
    NextEnvSame s (if c then o else o') := by
  split
  · exact h
  · exact h'

theorem nextEnvSame_storing {as : List Addr} (h : EnvSame s t) : NextEnvSame s (storing u as t) :=
  nextEnvSame_ite (nextEnvSame_refused _) (nextEnvSame_next h)

theorem nextEnvSame_trans (h : EnvSame s t) (k : NextEnvSame t o) : NextEnvSame s o := fun u e => h.trans (k u e)

end Outcomes

section Instructions

variable (s : State)

theorem storeVia_envSame (d : Bool) (m : PtrMode) (p g : GReg) : NextEnvSame s (storeVia d m p g s) := by
  have h := EnvSame.refl s
  refine nextEnvSame_storing ?_
  split
  · exact h.ptrCommit.storeWord
  · exact h.storeWord.ptrCommit

theorem bitReg_envSame (op : BitOp) (rd : Reg) (k : BitVec 4) : NextEnvSame s (bitReg op rd k s) := by
  have h := EnvSame.refl s
  exact nextEnvSame_ite (nextEnvSame_next h.setZOfBit) (nextEnvSame_next h.setZOfBit.setReg)

theorem bitMem_envSame (op : BitOp) (ea : Addr) (k : BitVec 4) : NextEnvSame s (bitMem op ea k s) := by
  have h := EnvSame.refl s
  exact nextEnvSame_ite (nextEnvSame_next h.load.setZOfBit) (nextEnvSame_storing h.load.setZOfBit.storeWord)

theorem shift16_envSame (k : Shift16) (rd rs : Reg) : NextEnvSame s (shift16 k rd rs s) := by
  have h := EnvSame.refl s
  cases k with
  | asr | lsl | lsr => exact nextEnvSame_next h.setReg
  | asrOr | lslOr | lsrOr => exact nextEnvSame_ite (nextEnvSame_next h.setReg.setReg) (nextEnvSame_refused _)
  | rol | ror => exact nextEnvSame_next h.rotateWrite

theorem byteModeLoad_envSame (w : Width) (e : BitVec 23) (rd : Reg) {before after : State → State}
    (hb : EnvSame s (before s)) (ha : ∀ t, EnvSame s t → EnvSame s (after t)) :
    NextEnvSame s (byteModeLoad w e before after rd s) :=
  nextEnvSame_ite (nextEnvSame_next (EnvSame.refl s).enter) (nextEnvSame_next (ha _ hb.byteLoad).aluWrite)

theorem byteModeStore_envSame (w : Width) (e : BitVec 23) (v : Word) {before after : State → State}
    (hb : EnvSame s (before s)) (ha : ∀ t, EnvSame s t → EnvSame s (after t)) :
    NextEnvSame s (byteModeStore w e before after v s) :=
  nextEnvSame_ite (nextEnvSame_next (EnvSame.refl s).enter) (nextEnvSame_next (ha _ hb.byteStore))

/-- An instruction of the table, form by form. -/
theorem execShape_envSame (sh : Shape) : NextEnvSame s (execShape sh s) := by
  have h := EnvSame.refl s
  cases sh with
  | aluBpIm6 op rd im | aluA6 op rd im => exact nextEnvSame_next h.load.aluWrite
  | aluIm6 op rd im | aluReg op rd rs | aluIm16 op rd rs im => exact nextEnvSame_next h.aluWrite
  | aluInd op rd d m rs => exact nextEnvSame_ite (nextEnvSame_refused _) (nextEnvSame_next h.load.ptrCommit.aluWrite)
  | aluA16 op w rd rs a => exact nextEnvSame_ite (nextEnvSame_storing h.aluStore) (nextEnvSame_next h.load.aluWrite)
  | aluShift op k rd nn rs => exact nextEnvSame_next h.setShiftBuf.aluWrite
  | extBpIm6 op rx im | extA6 op rx im => exact nextEnvSame_next h.load.aluWriteG
  | extIm6 op rx im | extReg op ra rb | extIm16 op ra rb im => exact nextEnvSame_next h.aluWriteG
  | extInd op rx d m ry => exact nextEnvSame_ite (nextEnvSame_refused _) (nextEnvSame_next h.load.ptrCommit.aluWriteG)
  | extA16 op w ra rb a => exact nextEnvSame_ite (nextEnvSame_storing h.aluStore) (nextEnvSame_next h.load.aluWriteG)
  | storeBpIm6 rd im | storeA16 rd rs a | storeA6 rd a | extStoreA16 ra rb a | extStoreBpIm6 rx im | extStoreA6 rx a =>
    exact nextEnvSame_storing h.storeWord
  | storeInd rd d m rs | extStoreInd rx d m ry =>
    exact nextEnvSame_ite (nextEnvSame_refused _) (storeVia_envSame s _ _ _ _)
  | push rd n rs | extPush n rx rb =>
    exact nextEnvSame_ite (nextEnvSame_refused _) (nextEnvSame_ite (nextEnvSame_refused _)
      (nextEnvSame_storing h.pushRegs))
  | pop rd n rs =>
    exact nextEnvSame_ite (nextEnvSame_refused _) (nextEnvSame_ite (nextEnvSame_refused _)
      (nextEnvSame_next h.popRegs.popPage))
  | extPop n fld rb =>
    exact nextEnvSame_ite (nextEnvSame_refused _) (nextEnvSame_ite (nextEnvSame_refused _)
      (nextEnvSame_next h.popRegs))
  | bitRegReg op rd rs | bitRegOff op rd off => exact bitReg_envSame s _ _ _
  | bitMemReg op rd d rs | bitMemOff op rd d off | bitA16 op d off a => exact bitMem_envSame s _ _ _
  | shift16 k rd rs => exact shift16_envSame s k rd rs
  | mul k rd rs => exact nextEnvSame_ite (nextEnvSame_refused _) (nextEnvSame_next h.setMr.freeShiftBuf)
  | muls k rd n rs =>
    exact nextEnvSame_ite (nextEnvSame_refused _) (nextEnvSame_storing h.mulsLevels.mulsFinish)
  | divs => exact nextEnvSame_next h.divsStep
  | divq => exact nextEnvSame_next h.divqStep
  | exp => exact nextEnvSame_next h.setReg
  | branch c back im => exact nextEnvSame_ite (nextEnvSame_next h.jump) (nextEnvSame_next h)
  | goto hi lo | gotoMr => exact nextEnvSame_next h.jump
  | call hi lo | callMr => exact nextEnvSame_storing h.pushReturn.jump
  | retf => exact nextEnvSame_next h.returnFar
  | reti => exact nextEnvSame_next h.returnInt
  | brk => exact nextEnvSame_storing h.enter
  | rsEqDs rs | rsEqFr rs => exact nextEnvSame_ite (nextEnvSame_refused _) (nextEnvSame_next h.setReg)
  | dsIm6 im | dsEqRs rs => exact nextEnvSame_next h.setDs
  | frEqRs rs => exact nextEnvSame_next h.setFr
  | int f i | firMov off | fraction on | irq on | secbank on | fiq on | irqnest on =>
    exact nextEnvSame_next (h.own ⟨rfl, rfl, rfl, rfl⟩)
  | nop => exact nextEnvSame_next h
  | extPrefix e => exact nextEnvSame_refused _

/-- An instruction only [1.3] has. -/
theorem exec13_envSame (i : Instr13) : NextEnvSame s (exec13 i s) := by
  have h := EnvSame.refl s
  have byteLoad (w : Width) (e : BitVec 23) (rd : Reg) (m : PtrMode) (x : PairReg) : NextEnvSame s
      (byteModeLoad w e (fun t => pairBefore t w m x) (fun t => pairAfter t w m x) rd s) :=
    byteModeLoad_envSame s w e rd h.pairBefore fun _ ht => ht.pairAfter
  have byteStore (w : Width) (e : BitVec 23) (v : Word) (m : PtrMode) (x : PairReg) : NextEnvSame s
      (byteModeStore w e (fun t => pairBefore t w m x) (fun t => pairAfter t w m x) v s) :=
    byteModeStore_envSame s w e v h.pairBefore fun _ ht => ht.pairAfter
  cases i with
  | loadInd w rd m x | loadIdx w rd m x => exact nextEnvSame_ite (nextEnvSame_refused _) (byteLoad w _ rd m x)
  | storeInd w m x rd | storeIdx w m x rd => exact nextEnvSame_ite (nextEnvSame_refused _) (byteStore w _ _ m x)
  | storeIndImm w m x im | storeIdxImm w m x im => exact byteStore w _ im m x
  | loadBp w rd im => exact byteModeLoad_envSame s w _ _ h fun _ ht => ht
  | storeBp w im rd | storeBpImm w im val => exact byteModeStore_envSame s w _ _ h fun _ ht => ht
  | rsEqSs rs => exact nextEnvSame_ite (nextEnvSame_refused _) (nextEnvSame_next h.setReg)
  | ssEqRs rs | mdsEqR3 => exact nextEnvSame_next (h.own ⟨rfl, rfl, rfl, rfl⟩)
  | r3EqMds => exact nextEnvSame_next h.setReg
  | divuu => exact nextEnvSame_next h.setAq.divqSteps
  | divss => exact nextEnvSame_next h.divsStep.divqSteps
  | bitA16 op d off a => exact bitMem_envSame s op _ off

/-- Fetching and running one instruction. -/
theorem runNext_envSame : NextEnvSame s (runNext s) := by
  have h := EnvSame.fetch s
  unfold runNext
  dsimp only
  split
  · exact nextEnvSame_trans h.begin (exec_eq_execShape _ _ ▸ execShape_envSame _ _)
  · exact nextEnvSame_trans h.begin (exec13_envSame _ _)
  · exact nextEnvSame_refused _

end Instructions

/-! ### What a step is (R459, R475, R490 to R493) -/

/-- A step that answers a next state is a reset, a period in which a pin holds the core, a period of DMA, the entry of a
request or an instruction. -/
theorem step_cases {s t : State} (h : step s = .next t) :
    (s.pins.reset = true ∧ t = s.resetSequence) ∨
    (s.pins.reset = false ∧ s.stalled = true ∧ t = s) ∨
    (s.pins.reset = false ∧ s.stalled = false ∧ s.dmaGranted = true ∧ t = { s.dmaPoint with dmack := true }) ∨
    (Running s ∧ ∃ e : Event, t = ({ s with dmack := false } : State).takeRequest e) ∨
    (Running s ∧ runNext { s with dmack := false } = .next t) := by
  unfold step at h
  split at h
  · next hreset => exact .inl ⟨hreset, (Host.Outcome.next.inj h).symm⟩
  next hreset =>
  rw [Bool.not_eq_true] at hreset
  split at h
  · next hstalled => exact .inr (.inl ⟨hreset, hstalled, (Host.Outcome.next.inj h).symm⟩)
  next hstalled =>
  rw [Bool.not_eq_true] at hstalled
  split at h
  · next hdma => exact .inr (.inr (.inl ⟨hreset, hstalled, hdma, (Host.Outcome.next.inj h).symm⟩))
  next hdma =>
  rw [Bool.not_eq_true] at hdma
  dsimp only at h
  split at h
  · next e _ => exact .inr (.inr (.inr (.inl ⟨⟨hreset, hstalled, hdma⟩, e, (Host.Outcome.next.inj h).symm⟩)))
  · exact .inr (.inr (.inr (.inr ⟨⟨hreset, hstalled, hdma⟩, h⟩)))

/-- DMA is granted in the versions with DMAQ while it is active (R111, R490). -/
theorem dmaGranted_eq (s : State) :
    s.dmaGranted = (s.pins.dmaq && (decide (s.cfg.ver = .v12) || decide (s.cfg.ver = .v13))) := by
  unfold State.dmaGranted
  cases s.cfg.ver <;> simp [hasHoldPins]

theorem takeRequest_envSame (s : State) (e : Event) : EnvSame s (s.takeRequest e) :=
  (EnvSame.refl s).enter.own ⟨rfl, rfl, rfl, rfl⟩

/-- Settles O10: each kind of step keeps what the environment holds, and leaves DMACK as DMA is granted. -/
theorem stepKeepsParametersAndPins : Obligations.StepKeepsParametersAndPins := by
  intro s t hstep
  rw [← dmaGranted_eq]
  have running (hrun : Running s) (h : EnvSame { s with dmack := false } t) : t.cfg = s.cfg ∧ t.pins = s.pins ∧
      (∀ a : Addr, s.cfg.backing a ≠ .ram → Memory.readWord t.mem a = Memory.readWord s.mem a) ∧
      (s.pins.reset = false → s.stalled = false → t.dmack = s.dmaGranted) := by
    obtain ⟨-, -, hdma⟩ := hrun
    exact ⟨h.cfg, h.pins, h.mem, fun _ _ => h.dmack.trans hdma.symm⟩
  obtain ⟨hreset, rfl⟩ | ⟨-, hstalled, rfl⟩ | ⟨-, -, hdma, rfl⟩ | ⟨hrun, e, rfl⟩ | ⟨hrun, hnext⟩ := step_cases hstep
  · have hload := (EnvSame.refl s).load (a := vectorAddr s.cfg resetSlot)
    exact ⟨rfl, rfl, hload.mem, fun h => absurd (hreset.symm.trans h) (by decide)⟩
  · exact ⟨rfl, rfl, fun _ _ => rfl, fun _ h => absurd (hstalled.symm.trans h) (by decide)⟩
  · exact ⟨rfl, rfl, (EnvSame.refl s).dmaPoint.mem, fun _ _ => hdma.symm⟩
  · exact running hrun (takeRequest_envSame _ e)
  · exact running hrun (runNext_envSame _ t hnext)

end Sys2Proof.Proofs

namespace Sys2Proof.Proofs

open Sys2Proof Sys2Proof.Machine Sys2Proof.Laws

/-! ### What no instruction but those of SECBANK, FR and the exceptions changes (R30, R70, R431, R468) -/

/-- `t` has the parameters, the levels in service, BNK and the bank not in use of `s`, its memory is in canonical form if
that of `s` is, and unless `ext` its extend registers are those of `s`. -/
structure CoreKept (ext : Bool) (s t : State) : Prop where
  cfg : t.cfg = s.cfg
  svc : t.svc = s.svc
  bnk : t.flags.bnk = s.flags.bnk
  otherBank : t.otherBank = s.otherBank
  xregs : ext = false → ∀ y : XReg, t.xreg y = s.xreg y
  wf : Memory.wf s.mem = true → Memory.wf t.mem = true

/-- A register an instruction may write: any, or where `ext` is false a core register. -/
def Writable (ext : Bool) (g : GReg) : Prop := ext = false → ∃ r : Reg, g = .core r

theorem writable_core (ext : Bool) (r : Reg) : Writable ext (.core r) := fun _ => ⟨r, rfl⟩

theorem writable_true (g : GReg) : Writable true g := fun h => nomatch h

theorem Writable.ne_ext {ext : Bool} {g : GReg} (h : Writable ext g) (hext : ext = false) (y : XReg) : .ext y ≠ g := by
  obtain ⟨r, rfl⟩ := h hext
  exact GReg.noConfusion

namespace CoreKept

variable {ext : Bool} {s t u : State}

theorem refl (s : State) : CoreKept ext s s := ⟨rfl, rfl, rfl, rfl, fun _ _ => rfl, id⟩

theorem trans (h : CoreKept ext s t) (k : CoreKept ext t u) : CoreKept ext s u :=
  ⟨k.cfg.trans h.cfg, k.svc.trans h.svc, k.bnk.trans h.bnk, k.otherBank.trans h.otherBank,
    fun hext y => (k.xregs hext y).trans (h.xregs hext y), fun hwf => k.wf (h.wf hwf)⟩

/-- A change outside the parameters, the registers, the levels, BNK and memory. -/
theorem own (h : CoreKept ext s t) (hown : u.cfg = t.cfg ∧ u.svc = t.svc ∧ u.flags.bnk = t.flags.bnk ∧
    u.regs = t.regs ∧ u.mem = t.mem) : CoreKept ext s u := by
  obtain ⟨hcfg, hsvc, hbnk, hregs, hmem⟩ := hown
  refine h.trans ⟨hcfg, hsvc, hbnk, ?_, fun _ y => ?_, fun hwf => hmem ▸ hwf⟩
  · unfold State.otherBank State.bank
    rw [hcfg, hbnk, hregs]
  · cases y <;> simp only [State.xreg, hregs]

/-- A change of registers and of fields that belong to no claim here. -/
theorem core (h : CoreKept ext s t) (hcore : CoreSame t u) (hmem : u.mem = t.mem)
    (hx : ext = false → ∀ y : XReg, u.xreg y = t.xreg y) : CoreKept ext s u := by
  obtain ⟨hcfg, -, hflags, -, hsvc, -, -, -, hother⟩ := hcore
  exact h.trans ⟨hcfg, hsvc, by rw [hflags], hother, hx, fun hwf => hmem ▸ hwf⟩

/-! ### Accesses -/

theorem dmaPoint (h : CoreKept ext s t) : CoreKept ext s t.dmaPoint :=
  h.trans ⟨rfl, rfl, rfl, rfl, fun _ y => dmaPoint_xreg t y, dmaPoint_wf t⟩

theorem load {a : Addr} (h : CoreKept ext s t) : CoreKept ext s (t.load a).2 := h.dmaPoint.own ⟨rfl, rfl, rfl, rfl, rfl⟩

theorem loadByte {e : BitVec 23} (h : CoreKept ext s t) : CoreKept ext s (t.loadByte e).2 :=
  h.dmaPoint.own ⟨rfl, rfl, rfl, rfl, rfl⟩

theorem storeWord {a : Addr} {v : Word} (h : CoreKept ext s t) : CoreKept ext s (t.storeWord a v) :=
  h.trans ⟨rfl, rfl, rfl, rfl, fun _ y => storeWord_xreg t a v y, storeWord_wf t a v⟩

theorem storeByte {e : BitVec 23} {v : BitVec 8} (h : CoreKept ext s t) : CoreKept ext s (t.storeByte e v) :=
  h.trans ⟨rfl, rfl, rfl, rfl, fun _ y => storeByte_xreg t e v y, storeByte_wf t e v⟩

/-! ### Registers, flags and the ALU -/

theorem setReg {r : Reg} {v : Word} (h : CoreKept ext s t) : CoreKept ext s (t.setReg r v) :=
  h.core (setGreg_sysSame t (.core r) v).1 (setReg_mem t r v) fun _ y => setReg_xreg t r v y

theorem setGreg {g : GReg} {v : Word} (h : CoreKept ext s t) (hg : Writable ext g) : CoreKept ext s (t.setGreg g v) :=
  h.core (setGreg_sysSame t g v).1 (setGreg_mem t g v) fun hext y => setGreg_greg_other t g (.ext y) v (hg.ne_ext hext y)

theorem setMr {v : BitVec 32} (h : CoreKept ext s t) : CoreKept ext s (t.setMr v) := h.setReg.setReg

theorem setSr {w : Word} (h : CoreKept ext s t) : CoreKept ext s (t.setSr w) := h.own ⟨rfl, rfl, rfl, rfl, rfl⟩

theorem setDs {p : Page} (h : CoreKept ext s t) : CoreKept ext s (t.setDs p) := h.own ⟨rfl, rfl, rfl, rfl, rfl⟩

theorem jump {a : Addr} (h : CoreKept ext s t) : CoreKept ext s (t.jump a) := h.own ⟨rfl, rfl, rfl, rfl, rfl⟩

theorem setShiftBuf {v : BitVec 4} (h : CoreKept ext s t) : CoreKept ext s (t.setShiftBuf v) :=
  h.own ⟨rfl, rfl, rfl, rfl, rfl⟩

theorem freeShiftBuf (h : CoreKept ext s t) : CoreKept ext s t.freeShiftBuf := h.own ⟨rfl, rfl, rfl, rfl, rfl⟩

theorem setZOfBit {w : Word} {k : BitVec 4} (h : CoreKept ext s t) : CoreKept ext s (t.setZOfBit w k) :=
  h.own ⟨rfl, rfl, rfl, rfl, rfl⟩

theorem rotateWrite {rd : Reg} {r : Word × Bool} (h : CoreKept ext s t) : CoreKept ext s (rotateWrite rd r t) :=
  (h.own (u := { t with status := { t.status with c := r.2 } }) ⟨rfl, rfl, rfl, rfl, rfl⟩).setReg

theorem ptrCommit {d : Bool} {m : PtrMode} {g : GReg} (h : CoreKept ext s t) (hg : Writable ext g) :
    CoreKept ext s (ptrCommit t d m g) := by
  unfold Machine.ptrCommit
  dsimp only
  split_ifs
  · exact h
  · exact (h.setGreg hg).setDs
  · exact h.setGreg hg

theorem stepStack {g : GReg} {d : Int} (h : CoreKept ext s t) (hg : Writable ext g) : CoreKept ext s (t.stepStack g d) :=
  h.core (stepStack_core t g d).1 (stepStack_mem t g d) fun hext y =>
    stepStack_greg_other t g (.ext y) d (hg.ne_ext hext y)

theorem aluWriteG {op : AluOp} {g : GReg} {a b : Word} (h : CoreKept ext s t) (hg : Writable ext g) :
    CoreKept ext s (t.aluWriteG op g a b) := by
  obtain ⟨hcompare, hwrite, ⟨hcore, -, -⟩, -⟩ := aluWriteG_effect op g a b t
  refine h.core hcore (aluWriteG_mem t op g a b) fun hext y => ?_
  by_cases hc : AluCompares op
  · obtain ⟨-, -, -, hregs⟩ := hcompare hc
    exact hregs (.ext y) GReg.noConfusion GReg.noConfusion
  · obtain ⟨-, -, -, hregs⟩ := hwrite hc
    exact hregs (.ext y) (hg.ne_ext hext y) GReg.noConfusion GReg.noConfusion

theorem aluWrite {op : AluOp} {rd : Reg} {a b : Word} (h : CoreKept ext s t) : CoreKept ext s (t.aluWrite op rd a b) :=
  h.aluWriteG (writable_core ext rd)

/-- The W = 1 form stores the result, or changes SR alone. -/
theorem aluStore {op : AluOp} {ea : Addr} {a b : Word} (h : CoreKept ext s t) :
    CoreKept ext s (t.aluStore op ea a b) := by
  unfold State.aluStore
  split
  · exact h.storeWord.own ⟨rfl, rfl, rfl, rfl, rfl⟩
  · exact h.own ⟨rfl, rfl, rfl, rfl, rfl⟩

/-! ### The stack -/

theorem pushVia {g : GReg} {v : Word} (h : CoreKept ext s t) (hg : Writable ext g) : CoreKept ext s (t.pushVia g v) :=
  h.storeWord.stepStack hg

theorem push {v : Word} (h : CoreKept ext s t) : CoreKept ext s (t.push v) := h.pushVia (writable_core ext .sp)

theorem pushReturn (h : CoreKept ext s t) : CoreKept ext s t.pushReturn := h.push.push

theorem pop (h : CoreKept ext s t) : CoreKept ext s t.pop.2 := (h.stepStack (writable_core ext .sp)).load

theorem pushRegs {g : GReg} {l : List GReg} (h : CoreKept ext s t) (hg : Writable ext g) :
    CoreKept ext s (pushRegs g l t) := by
  induction l generalizing t with
  | nil => exact h
  | cons r l ih => exact ih (h.pushVia hg)

theorem popFlags {g : GReg} {v : Word} (h : CoreKept ext s t) : CoreKept ext s (popFlags t g v) := by
  obtain ⟨⟨hcore, -, -⟩, ⟨hmem, -⟩, -, hregs, -⟩ := popFlags_same t g v
  exact h.core hcore hmem fun _ y => hregs (.ext y) GReg.noConfusion

theorem popRegs {g : GReg} {l : List GReg} (h : CoreKept ext s t) (hg : Writable ext g) (hl : ∀ q ∈ l, Writable ext q) :
    CoreKept ext s (popRegs g l t) := by
  induction l generalizing t with
  | nil => exact h
  | cons r l ih =>
    exact ih (((h.stepStack hg).load).setGreg (hl r List.mem_cons_self)).popFlags
      fun q hq => hl q (List.mem_cons_of_mem r hq)

theorem popPage {g : GReg} {l : List GReg} {v : State} (h : CoreKept ext s t) : CoreKept ext s (popPage g l v t) := by
  rw [popPage_same]
  exact h.own ⟨rfl, rfl, rfl, rfl, rfl⟩

theorem returnFar (h : CoreKept ext s t) : CoreKept ext s t.returnFar := by
  unfold State.returnFar
  exact h.pop.setSr.pop.setReg

/-! ### Multiplication and division -/

theorem pointerStep {r : Reg} {m : MulSegs} (h : CoreKept ext s t) : CoreKept ext s (pointerStep t r m) :=
  (h.own (u := { t with mds := m }) ⟨rfl, rfl, rfl, rfl, rfl⟩).setReg

theorem mulsStepD {rd : Reg} (h : CoreKept ext s t) : CoreKept ext s (mulsStepD t rd) := by
  rw [mulsStepD_eq]
  exact h.pointerStep

theorem mulsStepS {rs : Reg} (h : CoreKept ext s t) : CoreKept ext s (mulsStepS t rs) := by
  rw [mulsStepS_eq]
  exact h.pointerStep

theorem firStore {move : Bool} {rd : Reg} {prev : Option Word} (h : CoreKept ext s t) :
    CoreKept ext s (firStore t move rd prev) := by
  unfold Machine.firStore
  split
  · exact h
  · split
    · exact h.storeWord
    · exact h

theorem mulsLevels {k : MulKind} {rd rs : Reg} {move : Bool} {n : Nat} {prev : Option Word} {acc : Int}
    (h : CoreKept ext s t) : CoreKept ext s (mulsLevels k rd rs move n prev acc t).2 := by
  induction n generalizing t prev acc with
  | zero => exact h
  | succ n ih => exact ih h.load.load.firStore.mulsStepD.mulsStepS

theorem mulsFinish {acc : BitVec 36} (h : CoreKept ext s t) : CoreKept ext s (mulsFinish acc t) := by
  obtain ⟨v, n, b, heq, -⟩ := mulsFinish_eq acc t
  rw [heq]
  exact (h.setMr (v := acc.extractLsb' 0 32)).own ⟨rfl, rfl, rfl, rfl, rfl⟩

theorem setAq {b : Bool} (h : CoreKept ext s t) : CoreKept ext s (t.setAq b) := h.own ⟨rfl, rfl, rfl, rfl, rfl⟩

theorem divsStep (h : CoreKept ext s t) : CoreKept ext s (divsStep t) := h.setAq.setMr

theorem divqStep (h : CoreKept ext s t) : CoreKept ext s (divqStep t) := h.setAq.setMr

theorem divqSteps {n : Nat} (h : CoreKept ext s t) : CoreKept ext s (divqSteps n t) := by
  induction n generalizing t with
  | zero => exact h
  | succ n ih => exact ih h.divqStep

/-! ### The byte modes of [1.3] -/

theorem setPairPtr {x : PairReg} {v : BitVec 23} (h : CoreKept ext s t) : CoreKept ext s (setPairPtr t x v) :=
  h.setReg.setReg

theorem pairBefore {w : Width} {m : PtrMode} {x : PairReg} (h : CoreKept ext s t) :
    CoreKept ext s (pairBefore t w m x) := by
  cases m with
  | preInc => exact h.setPairPtr
  | keep | postDec | postInc => exact h

theorem pairAfter {w : Width} {m : PtrMode} {x : PairReg} (h : CoreKept ext s t) :
    CoreKept ext s (pairAfter t w m x) := by
  cases m with
  | postInc | postDec => exact h.setPairPtr
  | keep | preInc => exact h

theorem byteLoad {w : Width} {e : BitVec 23} (h : CoreKept ext s t) : CoreKept ext s (byteLoad t w e).2 := by
  cases w with
  | byte => exact h.loadByte
  | word => exact h.load

theorem byteStore {w : Width} {e : BitVec 23} {v : Word} (h : CoreKept ext s t) :
    CoreKept ext s (byteStore t w e v) := by
  cases w with
  | byte => exact h.storeByte
  | word => exact h.storeWord

/-! ### Fetch -/

theorem fetchRest {w0 : Word} {i : Instr} {v : State} (h : CoreKept ext s t) :
    CoreKept ext s (v.fetchRest t w0 i).2 := by
  unfold State.fetchRest
  split_ifs
  · exact h
  · dsimp only
    split
    · exact h.load
    · split_ifs
      · exact h.load
      · exact h.load.load

theorem fetchRest13 {i : Instr13} {v : State} (h : CoreKept ext s t) : CoreKept ext s (v.fetchRest13 t i).2 := by
  unfold State.fetchRest13
  split_ifs
  · exact h
  · exact h.load

theorem fetch (s : State) : CoreKept ext s s.fetch.2 := by
  have hfirst := (refl (ext := ext) s).load (a := s.seqAddr 0)
  unfold State.fetch
  dsimp only
  split
  · exact hfirst.fetchRest
  · split
    · exact hfirst.fetchRest13
    · exact hfirst

theorem begin {n : Nat} {hold : Bool} (h : CoreKept ext s t) : CoreKept ext s (t.begin n hold) :=
  h.own ⟨rfl, rfl, rfl, rfl, rfl⟩

end CoreKept

/-- The instructions that write BNK or the levels in service: SECBANK, FR = Rs, RETI and BREAK. -/
def writesBankOrLevels (sh : Shape) : Bool :=
  match sh with
  | .secbank _ | .frEqRs _ | .reti | .brk => true
  | _ => false

/-- A next state that `o` answers keeps what `CoreKept` says of `s`. -/
def NextKept (ext : Bool) (s : State) (o : Out) : Prop := ∀ t : State, o = .next t → CoreKept ext s t

section KeptOutcomes

variable {ext : Bool} {s t u : State} {o o' : Out}

theorem nextKept_next (h : CoreKept ext s t) : NextKept ext s (.next t) := fun _ e => Host.Outcome.next.inj e ▸ h

theorem nextKept_refused (r : Refusal) : NextKept ext s (.refused r) := fun _ e => nomatch e

theorem nextKept_ite {c : Prop} [Decidable c] (h : NextKept ext s o) (h' : NextKept ext s o') :
    NextKept ext s (if c then o else o') := by
  split
  · exact h
  · exact h'

/-- An instruction that stops where `c` holds. -/
theorem nextKept_unless {c : Prop} [Decidable c] {r : Refusal} (h : NextKept ext s o) :
    NextKept ext s (if c then .refused r else o) := nextKept_ite (nextKept_refused r) h

theorem nextKept_storing {as : List Addr} (h : CoreKept ext s t) : NextKept ext s (storing u as t) :=
  nextKept_unless (nextKept_next h)

end KeptOutcomes

theorem mem_coreRange {lo n : Nat} {g : GReg} (h : g ∈ coreRange lo n) : ∃ r : Reg, g = .core r := by
  induction n generalizing lo with
  | zero => exact nomatch h
  | succ n ih =>
    rcases List.mem_cons.mp h with h | h
    · exact ⟨_, h⟩
    · exact ih h

section KeptInstructions

variable {ext : Bool} (s : State)

theorem storeVia_kept (d : Bool) (m : PtrMode) (p g : GReg) (hp : Writable ext p) :
    NextKept ext s (storeVia d m p g s) := by
  have h := CoreKept.refl (ext := ext) s
  refine nextKept_storing ?_
  split
  · exact (h.ptrCommit hp).storeWord
  · exact h.storeWord.ptrCommit hp

theorem bitReg_kept (op : BitOp) (rd : Reg) (k : BitVec 4) : NextKept ext s (bitReg op rd k s) := by
  have h := CoreKept.refl (ext := ext) s
  exact nextKept_ite (nextKept_next h.setZOfBit) (nextKept_next h.setZOfBit.setReg)

theorem bitMem_kept (op : BitOp) (ea : Addr) (k : BitVec 4) : NextKept ext s (bitMem op ea k s) := by
  have h := CoreKept.refl (ext := ext) s
  exact nextKept_ite (nextKept_next h.load.setZOfBit) (nextKept_storing h.load.setZOfBit.storeWord)

theorem shift16_kept (k : Shift16) (rd rs : Reg) : NextKept ext s (shift16 k rd rs s) := by
  have h := CoreKept.refl (ext := ext) s
  cases k with
  | asr | lsl | lsr => exact nextKept_next h.setReg
  | asrOr | lslOr | lsrOr => exact nextKept_ite (nextKept_next h.setReg.setReg) (nextKept_refused _)
  | rol | ror => exact nextKept_next h.rotateWrite

/-- Every instruction of the table but SECBANK, FR = Rs, RETI and BREAK, form by form. -/
theorem execShape_kept (sh : Shape) (hsh : writesBankOrLevels sh = false) :
    NextKept (isExtended sh) s (execShape sh s) := by
  have h := CoreKept.refl (ext := isExtended sh) s
  have core := writable_core (isExtended sh)
  cases sh with
  | secbank _ | frEqRs _ | reti | brk => exact nomatch hsh
  | aluBpIm6 op rd im | aluA6 op rd im => exact nextKept_next h.load.aluWrite
  | aluIm6 op rd im | aluReg op rd rs | aluIm16 op rd rs im => exact nextKept_next h.aluWrite
  | aluInd op rd d m rs => exact nextKept_unless (nextKept_next (h.load.ptrCommit (core rs)).aluWrite)
  | aluA16 op w rd rs a => exact nextKept_ite (nextKept_storing h.aluStore) (nextKept_next h.load.aluWrite)
  | aluShift op k rd nn rs => exact nextKept_next h.setShiftBuf.aluWrite
  | extBpIm6 op rx im | extA6 op rx im => exact nextKept_next (h.load.aluWriteG (writable_true _))
  | extIm6 op rx im | extReg op ra rb | extIm16 op ra rb im => exact nextKept_next (h.aluWriteG (writable_true _))
  | extInd op rx d m ry =>
    exact nextKept_unless (nextKept_next ((h.load.ptrCommit (writable_true _)).aluWriteG (writable_true _)))
  | extA16 op w ra rb a =>
    exact nextKept_ite (nextKept_storing h.aluStore) (nextKept_next (h.load.aluWriteG (writable_true _)))
  | storeBpIm6 rd im | storeA16 rd rs a | storeA6 rd a | extStoreA16 ra rb a | extStoreBpIm6 rx im | extStoreA6 rx a =>
    exact nextKept_storing h.storeWord
  | storeInd rd d m rs => exact nextKept_unless (storeVia_kept s _ _ _ _ (core rs))
  | extStoreInd rx d m ry => exact nextKept_unless (storeVia_kept s _ _ _ _ (writable_true _))
  | push rd n rs => exact nextKept_unless (nextKept_unless (nextKept_storing (h.pushRegs (core rs))))
  | extPush n rx rb => exact nextKept_unless (nextKept_unless (nextKept_storing (h.pushRegs (writable_true _))))
  | pop rd n rs =>
    exact nextKept_unless (nextKept_unless (nextKept_next
      (h.popRegs (core rs) fun q hq _ => mem_coreRange hq).popPage))
  | extPop n fld rb =>
    exact nextKept_unless (nextKept_unless (nextKept_next (h.popRegs (writable_true _) fun q _ => writable_true q)))
  | bitRegReg op rd rs | bitRegOff op rd off => exact bitReg_kept s _ _ _
  | bitMemReg op rd d rs | bitMemOff op rd d off | bitA16 op d off a => exact bitMem_kept s _ _ _
  | shift16 k rd rs => exact shift16_kept s k rd rs
  | mul k rd rs => exact nextKept_unless (nextKept_next h.setMr.freeShiftBuf)
  | muls k rd n rs => exact nextKept_unless (nextKept_storing h.mulsLevels.mulsFinish)
  | divs => exact nextKept_next h.divsStep
  | divq => exact nextKept_next h.divqStep
  | exp => exact nextKept_next h.setReg
  | branch c back im => exact nextKept_ite (nextKept_next h.jump) (nextKept_next h)
  | goto hi lo | gotoMr => exact nextKept_next h.jump
  | call hi lo | callMr => exact nextKept_storing h.pushReturn.jump
  | retf => exact nextKept_next h.returnFar
  | rsEqDs rs | rsEqFr rs => exact nextKept_unless (nextKept_next h.setReg)
  | dsIm6 im | dsEqRs rs => exact nextKept_next h.setDs
  | int f i | firMov off | fraction on | irq on | fiq on | irqnest on =>
    exact nextKept_next (h.own ⟨rfl, rfl, rfl, rfl, rfl⟩)
  | nop => exact nextKept_next h
  | extPrefix e => exact nextKept_refused _

end KeptInstructions

/-! ### Exceptions and returns (R333, R334, R351, R453, R454) -/

/-- No entry writes BNK. -/
theorem entryFlags_bnk (s : State) (e : Event) : (s.entryFlags e).bnk = s.flags.bnk := by
  unfold State.entryFlags
  cases e with
  | brk | ade => rfl
  | fiq => dsimp only; split <;> rfl
  | irq n => dsimp only; split_ifs <;> rfl

/-- An entry keeps what an instruction does but for the levels in service, which it leaves as `entrySvc` says. -/
theorem enter_kept (e : Event) (s : State) : (s.enter e).svc = s.entrySvc e ∧
    CoreKept false s { s.enter e with svc := s.svc } := by
  have hmark : CoreKept false s (s.markAde e) := by
    unfold State.markAde
    split
    · exact (CoreKept.refl s).own ⟨rfl, rfl, rfl, rfl, rfl⟩
    · exact CoreKept.refl s
  let v := (s.markAde e).pushReturn
  let w := if v.savesFr e then v.push v.frWord else v
  have hw : CoreKept false s w := by
    by_cases hfr : v.savesFr e = true
    · rw [show w = v.push v.frWord from if_pos hfr]
      exact hmark.pushReturn.push
    · rw [show w = v from if_neg hfr]
      exact hmark.pushReturn
  let u := (w.load (vectorAddr w.cfg e.slot)).2
  have hu : CoreKept false s u := hw.load
  have hsvc : u.entrySvc e = s.entrySvc e := by
    unfold State.entrySvc
    rw [hu.cfg, hu.svc]
  exact ⟨hsvc, hu.own ⟨rfl, hu.svc.symm, entryFlags_bnk u e, rfl, rfl⟩⟩

/-- A pop writes SP alone of the registers. -/
theorem pop_regs (s : State) : s.pop.2.regs = { s.regs with sp := s.pop.2.regs.sp } := by
  show (s.stepStack (.core .sp) 1).regs = { s.regs with sp := (s.stepStack (.core .sp) 1).regs.sp }
  unfold State.stepStack
  split <;> rfl

theorem returnFar_regs (s : State) : s.returnFar.regs = { s.regs with sp := s.returnFar.regs.sp } := by
  show (s.pop.2.setSr s.pop.1).pop.2.regs = { s.regs with sp := (s.pop.2.setSr s.pop.1).pop.2.regs.sp }
  rw [pop_regs (s.pop.2.setSr s.pop.1), setSr_regs, pop_regs s]

/-- The state RETI returns from: after the pop of FR where it is restored (R334, R467). -/
def frRestored (s : State) : State := if s.restoresFr then s.pop.2.setFr s.pop.1 else s

theorem returnInt_eq (s : State) :
    s.returnInt = { (frRestored s).returnFar with svc := (frRestored s).returnFar.svc.tail } := rfl

theorem frRestored_true {s : State} (h : s.restoresFr = true) : frRestored s = s.pop.2.setFr s.pop.1 := if_pos h

theorem frRestored_false {s : State} (h : s.restoresFr = false) : frRestored s = s :=
  if_neg (by rw [h]; exact Bool.false_ne_true)

/-- RETI writes SP alone of the registers. -/
theorem returnInt_regs (s : State) : s.returnInt.regs = { s.regs with sp := s.returnInt.regs.sp } := by
  have hfr : (frRestored s).regs = { s.regs with sp := (frRestored s).regs.sp } := by
    cases h : s.restoresFr with
    | true => rw [frRestored_true h]; exact pop_regs s
    | false => rw [frRestored_false h]
  show (frRestored s).returnFar.regs = { s.regs with sp := (frRestored s).returnFar.regs.sp }
  rw [returnFar_regs, hfr]

theorem frRestored_kept (s : State) : (frRestored s).cfg = s.cfg ∧ (frRestored s).svc = s.svc ∧
    (Memory.wf s.mem = true → Memory.wf (frRestored s).mem = true) := by
  have hpop := (CoreKept.refl (ext := false) s).pop
  cases h : s.restoresFr with
  | true => rw [frRestored_true h]; exact ⟨hpop.cfg, hpop.svc, hpop.wf⟩
  | false => rw [frRestored_false h]; exact ⟨rfl, rfl, id⟩

/-- RETI takes the top level out of service and keeps the parameters and the canonical form of memory. -/
theorem returnInt_kept (s : State) : s.returnInt.cfg = s.cfg ∧ s.returnInt.svc = s.svc.tail ∧
    (Memory.wf s.mem = true → Memory.wf s.returnInt.mem = true) := by
  obtain ⟨hcfg, hsvc, hwf⟩ := frRestored_kept s
  have hfar := (CoreKept.refl (ext := false) (frRestored s)).returnFar
  exact ⟨hfar.cfg.trans hcfg, congrArg List.tail (hfar.svc.trans hsvc), fun h => hfar.wf (hwf h)⟩

/-! ### The bank not in use, and the extend registers (R30, R431) -/

/-- No register of either bank is written. -/
def BanksSame (s t : State) : Prop :=
  (t.regs.r1 = s.regs.r1 ∧ t.regs.r2 = s.regs.r2 ∧ t.regs.r3 = s.regs.r3 ∧ t.regs.r4 = s.regs.r4) ∧
    t.regs.s1 = s.regs.s1 ∧ t.regs.s2 = s.regs.s2 ∧ t.regs.s3 = s.regs.s3 ∧ t.regs.s4 = s.regs.s4

theorem banksSame_of_regs {s t : State} (h : t.regs = { s.regs with sp := t.regs.sp }) : BanksSame s t := by
  rw [BanksSame, h]
  exact ⟨⟨rfl, rfl, rfl, rfl⟩, rfl, rfl, rfl, rfl⟩

/-- The bank not in use, register by register. -/
theorem CoreKept.unusedBank {ext : Bool} {s t : State} (h : CoreKept ext s t) :
    (s.bank = true → t.regs.r1 = s.regs.r1 ∧ t.regs.r2 = s.regs.r2 ∧ t.regs.r3 = s.regs.r3 ∧ t.regs.r4 = s.regs.r4) ∧
    (s.bank = false →
      t.regs.s1 = s.regs.s1 ∧ t.regs.s2 = s.regs.s2 ∧ t.regs.s3 = s.regs.s3 ∧ t.regs.s4 = s.regs.s4) := by
  have hbank : t.bank = s.bank := by
    unfold State.bank
    rw [h.cfg, h.bnk]
  have hother := h.otherBank
  unfold State.otherBank at hother
  rw [hbank] at hother
  constructor <;> intro hb <;> simpa [hb] using hother

theorem xregs_eq {s t : State} (h : ∀ y : XReg, t.xreg y = s.xreg y) : t.xregs = s.xregs := by
  unfold State.xregs
  rw [show t.regs.x8 = s.regs.x8 from h .r8, show t.regs.x9 = s.regs.x9 from h .r9,
    show t.regs.x10 = s.regs.x10 from h .r10, show t.regs.x11 = s.regs.x11 from h .r11,
    show t.regs.x12 = s.regs.x12 from h .r12, show t.regs.x13 = s.regs.x13 from h .r13,
    show t.regs.x14 = s.regs.x14 from h .r14, show t.regs.x15 = s.regs.x15 from h .r15]

theorem xregs_of_regs {s t : State} (h : t.regs = { s.regs with sp := t.regs.sp }) : t.xregs = s.xregs := by
  unfold State.xregs
  rw [h]

/-- An instruction that completes and stops on no word fetched ahead leaves the state it stores. -/
theorem eq_of_storing {s t u : State} {as : List Addr} (h : storing s as t = .next u) : u = t := by
  unfold storing at h
  split at h
  · exact nomatch h
  · exact (Host.Outcome.next.inj h).symm

theorem eq_of_next {s t : State} (h : (Host.Outcome.next s : Out) = .next t) : t = s := (Host.Outcome.next.inj h).symm

theorem toInstr_shape (i : Instr) : i.shape.toInstr = some i := by
  cases i <;> rfl

/-- The shape names the instruction. -/
theorem eq_of_shape {i j : Instr} (h : i.shape = j.shape) : i = j :=
  Option.some.inj ((toInstr_shape i).symm.trans (h ▸ toInstr_shape j))

/-- An instruction of the table that completes keeps what `CoreKept` says, or is SECBANK, FR = Rs, RETI or BREAK. -/
theorem exec_cases {i : Instr} {s t : State} (h : exec i s = .next t) :
    CoreKept (isExtended i.shape) s t ∨
    (∃ on : Bool, i = .secbank on ∧ t = { s with flags := { s.flags with bnk := on } }) ∨
    (∃ rs : Reg, i = .frEqRs rs ∧ t = s.setFr (s.reg rs)) ∨
    (i = .reti ∧ t = s.returnInt) ∨ (i = .brk ∧ t = s.enter .brk) := by
  have hexec := h
  rw [exec_eq_execShape] at hexec
  cases hw : writesBankOrLevels i.shape with
  | false => exact .inl (execShape_kept s i.shape hw t hexec)
  | true =>
    refine .inr ?_
    cases hsh : i.shape with
    | secbank on => obtain rfl := eq_of_shape (j := .secbank on) hsh; exact .inl ⟨on, rfl, eq_of_next h⟩
    | frEqRs rs => obtain rfl := eq_of_shape (j := .frEqRs rs) hsh; exact .inr (.inl ⟨rs, rfl, eq_of_next h⟩)
    | reti => obtain rfl := eq_of_shape (j := .reti) hsh; exact .inr (.inr (.inl ⟨rfl, eq_of_next h⟩))
    | brk => obtain rfl := eq_of_shape (j := .brk) hsh; exact .inr (.inr (.inr ⟨rfl, eq_of_storing h⟩))
    | _ => rw [hsh] at hw; exact nomatch hw

/-- Settles O46: an instruction that writes BNK writes no register of a bank; every other one keeps the bank not in use. -/
theorem bankNotInUseIsUntouched : Obligations.BankNotInUseIsUntouched := by
  intro i s t hexec
  obtain h | ⟨on, rfl, rfl⟩ | ⟨rs, rfl, rfl⟩ | ⟨rfl, rfl⟩ | ⟨rfl, rfl⟩ := exec_cases hexec
  · exact ⟨h.unusedBank.1, h.unusedBank.2, fun hne => absurd h.bnk hne⟩
  · exact ⟨fun _ => ⟨rfl, rfl, rfl, rfl⟩, fun _ => ⟨rfl, rfl, rfl, rfl⟩, fun _ => .inl ⟨on, rfl⟩⟩
  · exact ⟨fun _ => ⟨rfl, rfl, rfl, rfl⟩, fun _ => ⟨rfl, rfl, rfl, rfl⟩, fun _ => .inr (.inl ⟨rs, rfl⟩)⟩
  · obtain ⟨hr, hsec⟩ := banksSame_of_regs (returnInt_regs s)
    exact ⟨fun _ => hr, fun _ => hsec, fun _ => .inr (.inr rfl)⟩
  · obtain ⟨-, h⟩ := enter_kept .brk s
    exact ⟨h.unusedBank.1, h.unusedBank.2, fun hne => absurd h.bnk hne⟩

/-- Settles O47: of the instructions that `CoreKept` leaves out, none writes an extend register, and only BREAK and RETI
write the levels in service. -/
theorem onlyExtendedInstructionsWriteExtendRegisters : Obligations.OnlyExtendedInstructionsWriteExtendRegisters := by
  intro i s t hexec
  obtain h | ⟨on, rfl, rfl⟩ | ⟨rs, rfl, rfl⟩ | ⟨rfl, rfl⟩ | ⟨rfl, rfl⟩ := exec_cases hexec
  · exact ⟨fun hext => xregs_eq (h.xregs hext), fun hne => absurd h.svc hne⟩
  · exact ⟨fun _ => rfl, fun hne => absurd rfl hne⟩
  · exact ⟨fun _ => rfl, fun hne => absurd rfl hne⟩
  · exact ⟨fun _ => xregs_of_regs (returnInt_regs s), fun _ => .inr rfl⟩
  · exact ⟨fun _ => xregs_eq ((enter_kept .brk s).2.xregs rfl), fun _ => .inl rfl⟩

/-! ### The invariant (R70, R468) -/

/-- Whatever keeps the parameters, the levels in service and the canonical form of memory keeps the invariant. -/
theorem CoreKept.inv {ext : Bool} {s t : State} (h : CoreKept ext s t) (hinv : s.Inv) : t.Inv :=
  ⟨h.wf hinv.1, by rw [h.cfg, h.svc]; exact hinv.2⟩

/-- The levels below the top one are ordered. -/
theorem svcOrdered_tail {ver : Version} {l : List Level} (h : svcOrdered ver l = true) : svcOrdered ver l.tail = true := by
  match l with
  | [] => rfl
  | [_] => rfl
  | a :: b :: l => exact (Bool.and_eq_true_iff.mp h).2

/-- A level may be pushed where it may lie over the top one. -/
theorem svcOrdered_cons {ver : Version} {a : Level} {l : List Level} (h : svcOrdered ver l = true)
    (ha : a ≠ .brk ∨ ver.is12Plus = true) (hover : ∀ b, l.head? = some b → levelOver ver a b = true) :
    svcOrdered ver (a :: l) = true := by
  match l with
  | [] =>
    rcases ha with ha | ha
    · simp [svcOrdered, ha]
    · simp [svcOrdered, ha]
  | b :: l => exact Bool.and_eq_true_iff.mpr ⟨hover b rfl, h⟩

/-- In [1.0] and [1.1] no BREAK is on top. -/
theorem head_ne_brk {ver : Version} {l : List Level} (h : svcOrdered ver l = true) (hver : ver.is12Plus = false) :
    l.head? ≠ some .brk := by
  intro hb
  match l with
  | [] => exact nomatch hb
  | [a] =>
    obtain rfl := Option.some.inj hb
    simp [svcOrdered, hver] at h
  | a :: b :: l =>
    obtain rfl := Option.some.inj hb
    simp [svcOrdered, levelOver, hver] at h

/-- What a request that may be taken finds on top (R452, D30). -/
theorem top_of_takes_fiq {s : State} (h : Takes s .fiq) {b : Level} (hb : s.svc.head? = some b) :
    (s.cfg.ver.is12Plus = true → b ≠ .brk) ∧ (b = .fiq → s.cfg.ver = .v13) := by
  have hmem : b ∈ s.svc := List.mem_of_mem_head? hb
  unfold Takes at h
  rw [hb] at h
  cases hv : s.cfg.ver with
  | v10 | v11 =>
    rw [hv] at h
    obtain ⟨-, -, hno⟩ := h
    exact ⟨(fun e => nomatch e), fun e => absurd (e ▸ hmem) hno⟩
  | v12 | v20 =>
    rw [hv] at h
    obtain ⟨-, -, hbrk, hfiq⟩ := h
    exact ⟨fun _ e => hbrk (congrArg some e), fun e => absurd (congrArg some e) hfiq⟩
  | v13 =>
    rw [hv] at h
    exact ⟨fun _ e => h.2.2 (congrArg some e), fun _ => rfl⟩

theorem top_of_takes_irq {s : State} {n : BitVec 3} (h : Takes s (.irq n)) {b : Level} (hb : s.svc.head? = some b) :
    (s.cfg.ver.is12Plus = true → b ≠ .brk) ∧ b ≠ .fiq ∧ (b = .irq → s.cfg.ver.is12Plus = true) := by
  have hmem : b ∈ s.svc := List.mem_of_mem_head? hb
  unfold Takes at h
  rw [hb] at h
  cases hv : s.cfg.ver with
  | v10 | v11 =>
    rw [hv] at h
    obtain ⟨-, -, -, hirq, hfiq⟩ := h
    exact ⟨(fun e => nomatch e), fun e => hfiq (e ▸ hmem), fun e => absurd (e ▸ hmem) hirq⟩
  | v12 | v20 =>
    rw [hv] at h
    obtain ⟨-, -, -, -, hbrk, hfiq, -⟩ := h
    exact ⟨fun _ e => hbrk (congrArg some e), fun e => hfiq (congrArg some e), fun _ => rfl⟩
  | v13 =>
    rw [hv] at h
    obtain ⟨-, -, -, -, hbrk, hfiq⟩ := h
    exact ⟨fun _ e => hbrk (congrArg some e), fun e => hfiq (congrArg some e), fun _ => rfl⟩

/-- The level a request pushes may lie over the one in service. -/
theorem levelOver_of_takes {s : State} (h : svcOrdered s.cfg.ver s.svc = true) {e : Event} (htakes : Takes s e)
    {b : Level} (hb : s.svc.head? = some b) : levelOver s.cfg.ver (eventLevel e) b = true := by
  have hbrk (h12 : s.cfg.ver.is12Plus = true → b ≠ .brk) : b ≠ .brk := by
    cases hv : s.cfg.ver.is12Plus with
    | true => exact h12 hv
    | false => exact fun e => head_ne_brk h hv (e ▸ hb)
  rcases takes_cases htakes with rfl | ⟨n, rfl⟩
  · obtain ⟨h12, hfiq⟩ := top_of_takes_fiq htakes hb
    cases b with
    | brk => exact absurd rfl (hbrk h12)
    | fiq => exact decide_eq_true (hfiq rfl)
    | irq => rfl
  · obtain ⟨h12, hfiq, hirq⟩ := top_of_takes_irq htakes hb
    cases b with
    | brk => exact absurd rfl (hbrk h12)
    | fiq => exact absurd rfl hfiq
    | irq => exact hirq rfl

/-- An entry keeps the order of the levels in service. -/
theorem svcOrdered_entry {s : State} (h : svcOrdered s.cfg.ver s.svc = true) {e : Event} (htakes : Takes s e) :
    svcOrdered s.cfg.ver (s.entrySvc e) = true := by
  rcases takes_cases htakes with rfl | ⟨n, rfl⟩
  · exact svcOrdered_cons h (.inl Level.noConfusion) fun b hb => levelOver_of_takes h htakes hb
  · exact svcOrdered_cons h (.inl Level.noConfusion) fun b hb => levelOver_of_takes h htakes hb

/-- BREAK and AdE are levels where the version has them as such (R466, R468). -/
theorem svcOrdered_brk {ver : Version} {l : List Level} (h : svcOrdered ver l = true) (hver : ver.is12Plus = true) :
    svcOrdered ver (.brk :: l) = true :=
  svcOrdered_cons h (.inr hver) fun _ _ => hver

theorem enter_inv {e : Event} {s : State} (hinv : s.Inv) (he : svcOrdered s.cfg.ver (s.entrySvc e) = true) :
    (s.enter e).Inv := by
  obtain ⟨hsvc, hkept⟩ := enter_kept e s
  exact ⟨hkept.wf hinv.1, by rw [hsvc, show (s.enter e).cfg = s.cfg from hkept.cfg]; exact he⟩

/-- An instruction of the table keeps the invariant. -/
theorem exec_inv {i : Instr} {s t : State} (h : exec i s = .next t) (hinv : s.Inv) : t.Inv := by
  obtain h | ⟨on, -, rfl⟩ | ⟨rs, -, rfl⟩ | ⟨-, rfl⟩ | ⟨-, rfl⟩ := exec_cases h
  · exact h.inv hinv
  · exact hinv
  · exact hinv
  · obtain ⟨hcfg, hsvc, hwf⟩ := returnInt_kept s
    exact ⟨hwf hinv.1, by rw [hcfg, hsvc]; exact svcOrdered_tail hinv.2⟩
  · refine enter_inv hinv ?_
    unfold State.entrySvc
    dsimp only
    split
    · next hver => exact svcOrdered_brk hinv.2 hver
    · exact hinv.2

section Only13

variable (s : State)

/-- A byte-mode access is AdE or keeps what the other instructions do. -/
theorem byteModeLoad_cases (w : Width) (e : BitVec 23) (rd : Reg) {before after : State → State}
    (hb : CoreKept false s (before s)) (ha : ∀ t, CoreKept false s t → CoreKept false s (after t)) {t : State}
    (h : byteModeLoad w e before after rd s = .next t) : t = s.enter .ade ∨ CoreKept false s t := by
  unfold byteModeLoad at h
  split at h
  · exact .inl (eq_of_next h)
  · exact .inr (eq_of_next h ▸ (ha _ hb.byteLoad).aluWrite)

theorem byteModeStore_cases (w : Width) (e : BitVec 23) (v : Word) {before after : State → State}
    (hb : CoreKept false s (before s)) (ha : ∀ t, CoreKept false s t → CoreKept false s (after t)) {t : State}
    (h : byteModeStore w e before after v s = .next t) : t = s.enter .ade ∨ CoreKept false s t := by
  unfold byteModeStore at h
  split at h
  · exact .inl (eq_of_next h)
  · exact .inr (eq_of_next h ▸ ha _ hb.byteStore)

theorem eq_next_of_ite {c : Prop} [Decidable c] {r : Refusal} {o : Out} {t : State}
    (h : (if c then .refused r else o) = .next t) : o = .next t := by
  split at h
  · exact nomatch h
  · exact h

/-- An instruction only [1.3] has is AdE or keeps what the other instructions do. -/
theorem exec13_cases {i : Instr13} {t : State} (h : exec13 i s = .next t) : t = s.enter .ade ∨ CoreKept false s t := by
  have hs := CoreKept.refl (ext := false) s
  have load (w : Width) (e : BitVec 23) (rd : Reg) (m : PtrMode) (x : PairReg) :=
    byteModeLoad_cases s w e rd (before := fun u => pairBefore u w m x) (after := fun u => pairAfter u w m x) (t := t)
      hs.pairBefore fun _ hu => hu.pairAfter
  have store (w : Width) (e : BitVec 23) (v : Word) (m : PtrMode) (x : PairReg) :=
    byteModeStore_cases s w e v (before := fun u => pairBefore u w m x) (after := fun u => pairAfter u w m x) (t := t)
      hs.pairBefore fun _ hu => hu.pairAfter
  cases i with
  | loadInd w rd m x | loadIdx w rd m x => exact load w _ rd m x (eq_next_of_ite h)
  | storeInd w m x rd | storeIdx w m x rd => exact store w _ _ m x (eq_next_of_ite h)
  | storeIndImm w m x im | storeIdxImm w m x im => exact store w _ im m x h
  | loadBp w rd im => exact byteModeLoad_cases s w _ _ hs (fun _ hu => hu) h
  | storeBp w im rd | storeBpImm w im val => exact byteModeStore_cases s w _ _ hs (fun _ hu => hu) h
  | rsEqSs rs => exact .inr (eq_of_next (eq_next_of_ite h) ▸ hs.setReg)
  | ssEqRs rs | mdsEqR3 => exact .inr (eq_of_next h ▸ hs.own ⟨rfl, rfl, rfl, rfl, rfl⟩)
  | r3EqMds => exact .inr (eq_of_next h ▸ hs.setReg)
  | divuu => exact .inr (eq_of_next h ▸ hs.setAq.divqSteps)
  | divss => exact .inr (eq_of_next h ▸ hs.divsStep.divqSteps)
  | bitA16 op d off a => exact .inr (bitMem_kept s op _ off t h)

/-- An instruction only [1.3] has is fetched in [1.3] alone. -/
theorem ver_of_fetch_only13 {i : Instr13} (h : s.fetch.1 = .only13 i) : s.cfg.ver = .v13 := by
  by_contra hver
  have hrest (t : State) (w0 : Word) (j : Instr) : (s.fetchRest t w0 j).1 ≠ .only13 i := by
    unfold State.fetchRest
    dsimp only
    repeat' split
    all_goals exact Fetched.noConfusion
  unfold State.fetch at h
  dsimp only at h
  rw [if_neg hver] at h
  split at h
  · exact hrest _ _ _ h
  · exact nomatch h

end Only13

/-- An instruction of [1.3] keeps the invariant. -/
theorem exec13_inv {i : Instr13} {s t : State} (hver : s.cfg.ver = .v13) (h : exec13 i s = .next t) (hinv : s.Inv) :
    t.Inv := by
  obtain rfl | h := exec13_cases s h
  · exact enter_inv hinv (svcOrdered_brk hinv.2 (by rw [hver]; rfl))
  · exact h.inv hinv

/-- Fetching and running one instruction keeps the invariant. -/
theorem runNext_inv {s t : State} (h : runNext s = .next t) (hinv : s.Inv) : t.Inv := by
  have hbegin (n : Nat) (hold : Bool) := (CoreKept.fetch (ext := false) s).begin (n := n) (hold := hold)
  unfold runNext at h
  dsimp only at h
  split at h
  · exact exec_inv h ((hbegin _ _).inv hinv)
  · next i hi =>
    exact exec13_inv ((congrArg Params.ver (hbegin _ _).cfg).trans (ver_of_fetch_only13 s hi)) h ((hbegin _ _).inv hinv)
  · exact nomatch h

/-- A request taken is one that may be taken. -/
theorem takes_of_request {s : State} {e : Event} (h : s.request = some e) : Takes s e := by
  by_cases hf : Takes s .fiq
  · exact Option.some.inj ((request_of_takes_fiq hf).symm.trans h) ▸ hf
  by_cases hi : ∃ n, Takes s (.irq n)
  · obtain ⟨n, hn⟩ := hi
    exact Option.some.inj ((request_of_takes_irq hf hn).symm.trans h) ▸ hn
  · have hnone := request_of_takes_none (s := s) fun e he => by
      rcases takes_cases he with rfl | ⟨n, rfl⟩
      · exact hf he
      · exact hi ⟨n, he⟩
    exact nomatch hnone.symm.trans h

/-- Where no pin holds the core a step enters a request that may be taken, or runs the next instruction. -/
theorem step_running_cases {s t : State} (hrun : Running s) (h : step s = .next t) :
    (∃ e : Event, Takes s e ∧ t = ({ s with dmack := false } : State).takeRequest e) ∨
    runNext { s with dmack := false } = .next t := by
  cases hs : s.sampled with
  | none => exact .inr ((step_eq_runNext hrun hs).symm.trans h)
  | some e =>
    unfold State.sampled at hs
    split at hs
    · exact nomatch hs
    · next hhold =>
      rw [step_eq_takeRequest hrun (Bool.not_eq_true _ ▸ hhold) hs] at h
      exact .inl ⟨e, takes_of_request hs, eq_of_next h⟩

/-- Settles O6: a reset leaves no level, DMA writes as the core does, an entry pushes a level that may lie over the one
below, and every instruction keeps the invariant. -/
theorem stepKeepsInv : Obligations.StepKeepsInv := by
  intro s t hinv hstep
  obtain ⟨-, rfl⟩ | ⟨-, -, rfl⟩ | ⟨-, -, -, rfl⟩ | ⟨hrun, -⟩ | ⟨hrun, -⟩ := step_cases hstep
  · exact ⟨load_wf s (vectorAddr s.cfg resetSlot) hinv.1, rfl⟩
  · exact hinv
  · exact ⟨dmaPoint_wf s hinv.1, hinv.2⟩
  all_goals
    obtain ⟨e, htakes, rfl⟩ | hnext := step_running_cases hrun hstep
    · exact enter_inv (s := { s with dmack := false }) hinv (svcOrdered_entry hinv.2 htakes)
    · exact runNext_inv hnext hinv

/-! ### Reset (R47, R510) -/

/-- Settles O7: blank memory lists nothing, and nothing is in service. -/
theorem resetHasInv : Obligations.ResetHasInv := ⟨⟨rfl, rfl⟩, rfl⟩

/-- With the reset pin active a step is the reset sequence, before all else (R475). -/
theorem step_of_reset {s : State} (h : s.pins.reset = true) : step s = .next s.resetSequence := if_pos h

/-- Settles O8: the reset sequence gives every register its value of R47 and PC the vector word. -/
theorem resetLeaves : Obligations.ResetLeaves :=
  ⟨fun s h => ⟨s.resetSequence, step_of_reset h, rfl, rfl, rfl, rfl, rfl, rfl, memSame_refl _, rfl⟩, rfl, rfl, rfl, rfl⟩

end Sys2Proof.Proofs

namespace Sys2Proof.Proofs

open Sys2Proof Sys2Proof.Machine Sys2Proof.Laws

/-! ### Every answer of the decoder is well formed (R126, R144) -/

/-- An answer of the decoder whose operands the encoding admits, where it is an instruction. -/
def OperandsOk (p : Params) : Except Unassigned Shape → Prop
  | .ok sh => isLoadStoring sh = false → sh.operandsOk p = true
  | .error _ => True

theorem OperandsOk.ite {p : Params} {c : Prop} [Decidable c] {r q : Except Unassigned Shape}
    (hr : c → OperandsOk p r) (hq : ¬ c → OperandsOk p q) : OperandsOk p (if c then r else q) := by
  split
  · exact hr ‹_›
  · exact hq ‹_›

/-- A shape whose operands the encoding leaves free. -/
theorem OperandsOk.free {p : Params} {sh : Shape} (h : sh.operandsOk p = true) : OperandsOk p (.ok sh) := fun _ => h

theorem isR0toR6_of_ne {r : Reg} (h : r ≠ .pc) : r.isR0toR6 = true := decide_eq_true h

theorem ofNum_ne_pc {n : BitVec 3} (h : n ≠ 7#3) : Reg.ofNum n ≠ .pc := by
  revert n
  decide

theorem decodeAlu_operandsOk (p : Params) (op : AluOp) {rd : Reg} {m : BitVec 3} (lo : BitVec 6) (w1 : Word)
    (h : m = 0#3 ∨ m = 1#3 → rd ≠ .pc) : OperandsOk p (decodeAlu op rd m lo w1) := by
  unfold decodeAlu
  refine .ite (fun hm _ => isR0toR6_of_ne (h (.inl hm))) fun _ => ?_
  refine .ite (fun hm _ => isR0toR6_of_ne (h (.inr hm))) fun _ => ?_
  repeat' refine .ite (fun _ => ?_) fun _ => ?_
  any_goals exact .free rfl
  any_goals trivial
  · exact .free (Bool.or_true _)
  · exact .free (by simp_all [Shape.operandsOk])

/-- PUSH and POP have a set, and the words of RETF and RETI are no POP (R131). -/
theorem decodeMulti_operandsOk (p : Params) {op : BitVec 4} {rd : BitVec 3} {lo : BitVec 6}
    (hret : ¬ (op = 9#4 ∧ rd = 5#3 ∧ (lo = 0b010000#6 ∨ lo = 0b011000#6))) :
    OperandsOk p (decodeMulti op (Reg.ofNum rd) lo) := by
  have hbp : ∀ n : BitVec 3, Reg.ofNum n = .bp → n = 5#3 := by decide
  have hsp : ∀ n : BitVec 3, Reg.ofNum n = .sp → n = 0#3 := by decide
  have hlo : ∀ l : BitVec 6, lowRs l = 0#3 → lowHi l = 2#3 ∨ lowHi l = 3#3 → l = 0b010000#6 ∨ l = 0b011000#6 := by decide
  unfold decodeMulti
  refine .ite (fun _ => trivial) fun hn => .ite (fun hop _ => ?_) fun _ => .ite (fun _ _ => decide_eq_true hn) fun _ => trivial
  have hpop : popIsReturn (Reg.ofNum rd) (lowHi lo) (Reg.ofNum (lowRs lo)) = false := by
    refine Bool.not_eq_true _ ▸ fun hreturn => hret ?_
    simp only [popIsReturn, Bool.and_eq_true, Bool.or_eq_true, decide_eq_true_eq] at hreturn
    obtain ⟨⟨hrd, hrs⟩, hset⟩ := hreturn
    exact ⟨hop, hbp rd hrd, hlo lo (hsp _ hrs) hset⟩
  show (decide (lowHi lo ≠ 0#3) && !popIsReturn _ _ _) = true
  rw [hpop, decide_eq_true hn]
  rfl

theorem decodeStore_operandsOk (p : Params) {rd : Reg} {m : BitVec 3} (lo : BitVec 6) (w1 : Word)
    (h : m = 0#3 → rd ≠ .pc) : OperandsOk p (decodeStore p rd m lo w1) := by
  unfold decodeStore
  refine .ite (fun hm _ => isR0toR6_of_ne (h hm)) fun _ => ?_
  repeat' refine .ite (fun _ => ?_) fun _ => ?_
  any_goals exact .free rfl
  trivial

theorem decode1110_operandsOk (p : Params) (rd : Reg) (m : BitVec 3) (lo : BitVec 6) :
    OperandsOk p (decode1110 rd m lo) := by
  unfold decode1110
  refine .ite (fun _ => trivial) fun hrd => ?_
  repeat' refine .ite (fun _ => ?_) fun _ => ?_
  any_goals trivial
  all_goals exact .free (isR0toR6_of_ne hrd)

theorem decodeMode_operandsOk (p : Params) (lo : BitVec 6) : OperandsOk p (decodeMode lo) := by
  unfold decodeMode
  repeat' refine .ite (fun _ => ?_) fun _ => ?_
  any_goals exact .free rfl
  all_goals trivial

theorem decodeExt_operandsOk (p : Params) (e w2 : Word) : OperandsOk p (decodeExt p e w2) := by
  unfold decodeExt
  refine .ite (fun _ => ?_) fun _ => .ite (fun _ => ?_) fun _ => ?_
  · refine .ite (fun _ => trivial) fun hn => .ite (fun _ => ?_) fun _ => ?_
    all_goals exact .free (decide_eq_true hn)
  · repeat' refine .ite (fun _ => ?_) fun _ => ?_
    any_goals exact .free rfl
    trivial
  · cases p.aluOf? (opField e) with
    | none => trivial
    | some op =>
      dsimp only
      repeat' refine .ite (fun _ => ?_) fun _ => ?_
      any_goals exact .free rfl
      any_goals trivial
      · exact .free (Bool.or_true _)
      · exact .free (by simp_all [Shape.operandsOk])

/-- What EXT_PREFIX begins: the word after it is in no row whatever the third word (log 49). -/
theorem extOrPrefix_operandsOk (p : Params) (w1 w2 : Word) : OperandsOk p (extOrPrefix p w1 w2) := by
  have hext := decodeExt_operandsOk p w1 w2
  unfold extOrPrefix
  cases h : decodeExt p w1 w2 with
  | ok sh => rw [h] at hext; exact hext
  | error why =>
    have hagree := decodeExt_agree p.ver True p w1 w2 0
    rw [h] at hagree
    refine .free ?_
    unfold Shape.operandsOk
    cases h0 : decodeExt p w1 0 with
    | ok => rw [h0] at hagree; exact hagree.elim
    | error =>
      show (match decodeExt p w1 0 with | .ok _ => false | .error _ => true) = true
      rw [h0]

theorem decode1111_operandsOk (p : Params) (rd m : BitVec 3) (lo : BitVec 6) (w1 w2 : Word) :
    OperandsOk p (decode1111 p rd m lo w1 w2) := by
  unfold decode1111
  refine .ite (fun _ => decodeMode_operandsOk p lo) fun _ => .ite (fun _ => ?_) fun _ => .ite (fun _ => ?_) fun hrd => ?_
  · refine .ite (fun _ => ?_) fun _ => ?_
    all_goals exact .free rfl
  · refine .ite (fun _ => .free rfl) fun _ => .ite (fun _ => .free rfl) fun _ => .ite (fun _ => .free rfl) fun _ => ?_
    exact .ite (fun _ => extOrPrefix_operandsOk p w1 w2) fun _ => trivial
  · repeat' refine .ite (fun _ => ?_) fun _ => ?_
    any_goals exact .free rfl
    any_goals trivial
    all_goals exact .free (isR0toR6_of_ne (ofNum_ne_pc hrd))

theorem decodeFields_operandsOk (p : Params) (op : BitVec 4) (rd m : BitVec 3) (lo : BitVec 6) (w1 w2 : Word) :
    OperandsOk p (decodeFields p op rd m lo w1 w2) := by
  unfold decodeFields
  refine .ite (fun _ => .free rfl) fun hretf => .ite (fun _ => .free rfl) fun hreti => ?_
  refine .ite (fun _ => decode1111_operandsOk p rd m lo w1 w2) fun _ => .ite (fun _ => ?_) fun hbranch => ?_
  · cases Cond.ofNum? op with
    | none => trivial
    | some c => exact .free rfl
  have hrd : m = 0#3 ∨ m = 1#3 → Reg.ofNum rd ≠ .pc := fun hm => ofNum_ne_pc fun h7 => hbranch ⟨h7, hm⟩
  refine .ite (fun _ => decode1110_operandsOk p _ m lo) fun _ => .ite (fun _ => trivial) fun _ => ?_
  refine .ite (fun hm => decodeMulti_operandsOk p ?_) fun _ =>
    .ite (fun _ => decodeStore_operandsOk p lo w1 fun hm => hrd (.inl hm)) fun _ => ?_
  · rintro ⟨hop, h5, hlo | hlo⟩
    · exact hretf ⟨hop, h5, hm, hlo⟩
    · exact hreti ⟨hop, h5, hm, hlo⟩
  · cases p.aluOf? op with
    | none => trivial
    | some o => exact decodeAlu_operandsOk p o lo w1 hrd

/-- Settles O2: the version is tested, and every branch of the decoder gives operands the encoding admits. -/
theorem decodedIsWellFormed : Obligations.DecodedIsWellFormed := by
  intro p w0 w1 w2 i h
  obtain ⟨sh, hsh, hver, hi⟩ := decode_eq_ok_iff.1 h
  have hok := decodeFields_operandsOk p (opField w0) (rdField w0) (modeField w0) (lowField w0) w1 w2
  rw [hsh] at hok
  obtain ⟨-, hnone⟩ | ⟨hload, j, hj, hshape⟩ := toInstr_cases sh
  · exact nomatch hnone.symm.trans hi
  · obtain rfl : j = i := Option.some.inj (hj.symm.trans hi)
    unfold Instr.wellFormed
    rw [hshape, hver, hok hload]
    rfl

/-! ### The fields of an encoded word (R122) -/

theorem rdField_mkWord (op : BitVec 4) (rd m : BitVec 3) (lo : BitVec 6) : rdField (mkWord op rd m lo) = rd :=
  (BitVec.extractLsb'_append_eq_of_le (by decide)).trans
    ((BitVec.extractLsb'_append_eq_of_le (by decide)).trans BitVec.extractLsb'_append_eq_right)

theorem modeField_mkWord (op : BitVec 4) (rd m : BitVec 3) (lo : BitVec 6) : modeField (mkWord op rd m lo) = m :=
  (BitVec.extractLsb'_append_eq_of_le (by decide)).trans BitVec.extractLsb'_append_eq_right

theorem lowField_mkWord (op : BitVec 4) (rd m : BitVec 3) (lo : BitVec 6) : lowField (mkWord op rd m lo) = lo :=
  BitVec.extractLsb'_append_eq_right

theorem lowHi_append (x r : BitVec 3) : lowHi (x ++ r) = x := BitVec.extractLsb'_append_eq_left

theorem lowRs_append (x r : BitVec 3) : lowRs (x ++ r) = r := BitVec.extractLsb'_append_eq_right

theorem lowBit_append (x : BitVec 2) (y : BitVec 4) : lowBit (x ++ y) = x := BitVec.extractLsb'_append_eq_left

theorem lowOff_append (x : BitVec 2) (y : BitVec 4) : lowOff (x ++ y) = y := BitVec.extractLsb'_append_eq_right

/-- The low field of three parts: a bit, the @ or count field, and Rs. -/
theorem low12_bit (b : BitVec 1) (x : BitVec 2) (r : BitVec 3) : (b ++ x ++ r).getLsbD 5 = b.getLsbD 0 := by
  revert b x r
  decide

theorem low12_at (b : BitVec 1) (x : BitVec 2) (r : BitVec 3) : lowAt (b ++ x ++ r) = x := by
  revert b x r
  decide

theorem low12_hi (b : BitVec 1) (x : BitVec 2) (r : BitVec 3) : lowHi (b ++ x ++ r) = b ++ x := lowHi_append (b ++ x) r

theorem low12_rs (b : BitVec 1) (x : BitVec 2) (r : BitVec 3) : lowRs (b ++ x ++ r) = r := lowRs_append (b ++ x) r

/-- The low field of three parts: a code, a bit, and a register. -/
theorem low21_bit (x : BitVec 2) (b : BitVec 1) (r : BitVec 3) : (x ++ b ++ r).getLsbD 3 = b.getLsbD 0 := by
  revert b x r
  decide

theorem low21_lowBit (x : BitVec 2) (b : BitVec 1) (r : BitVec 3) : lowBit (x ++ b ++ r) = x := by
  revert b x r
  decide

theorem low21_mid (x : BitVec 2) (b : BitVec 1) (r : BitVec 3) : (x ++ b ++ r).extractLsb' 3 1 = b := by
  revert b x r
  decide

theorem low21_hi (x : BitVec 2) (b : BitVec 1) (r : BitVec 3) : lowHi (x ++ b ++ r) = x ++ b := lowHi_append (x ++ b) r

theorem low21_rs (x : BitVec 2) (b : BitVec 1) (r : BitVec 3) : lowRs (x ++ b ++ r) = r := lowRs_append (x ++ b) r

theorem bit_getLsbD (b : Bool) : (bit b).getLsbD 0 = b := by
  cases b <;> rfl

/-! ### Codes and what they stand for (R20, R87, R123, R135, R240, R291) -/

@[simp] theorem ofNum_num (r : Reg) : Reg.ofNum r.num = r := by
  cases r <;> rfl

@[simp] theorem xofNum_num (x : XReg) : XReg.ofNum x.num = x := by
  cases x <;> rfl

@[simp] theorem ptrMode_ofNum_num (m : PtrMode) : PtrMode.ofNum m.num = m := by
  cases m <;> rfl

@[simp] theorem bitOp_ofNum_num (op : BitOp) : BitOp.ofNum op.num = op := by
  cases op <;> rfl

@[simp] theorem gregOfNum (g : GReg) : GReg.ofNum g.hi g.lo = g := by
  cases g <;> simp [GReg.ofNum, GReg.hi, GReg.lo]

theorem num_ne_seven {r : Reg} (h : r ≠ .pc) : r.num ≠ 7#3 := by
  cases r with
  | pc => exact absurd rfl h
  | _ => decide

/-- The operations with a code from the map: all but LOAD. -/
def mappedOps : List AluOp := [.add, .adc, .sub, .sbc, .cmp, .neg, .xor, .or, .and, .test]

theorem codes_eq_map (p : Params) : p.aluCodes.codes = mappedOps.map p.aluNum := rfl

theorem mem_mappedOps {op : AluOp} (h : op ≠ .load) : op ∈ mappedOps := by
  cases op with
  | load => exact absurd rfl h
  | _ => decide

/-- The map in force gives different operations different codes (R123). -/
theorem aluNum_injective (p : Params) : Function.Injective p.aluNum := by
  intro a b hab
  have hvalid := aluCodes_valid p
  rw [AluOpMap.valid, Bool.and_eq_true, codes_eq_map] at hvalid
  have hnodup := of_decide_eq_true hvalid.1
  by_cases ha : a = .load
  · subst ha
    by_contra hb
    exact aluNum_ne_load (Ne.symm hb) hab.symm
  by_cases hb : b = .load
  · subst hb
    exact absurd hab (aluNum_ne_load ha)
  exact List.inj_on_of_nodup_map hnodup (mem_mappedOps ha) (mem_mappedOps hb) hab

theorem aluOf?_aluNum (p : Params) (op : AluOp) : p.aluOf? (p.aluNum op) = some op := by
  unfold Params.aluOf?
  simp only [(aluNum_injective p).eq_iff]
  cases op <;> rfl

/-- The code of an operation is none of those of STORE, 1110 and 1111 (R123). -/
theorem aluNum_free (p : Params) (op : AluOp) : p.aluNum op ≠ 13#4 ∧ p.aluNum op ≠ 14#4 ∧ p.aluNum op ≠ 15#4 := by
  by_cases h : op = .load
  · subst h
    exact ⟨(by decide : 9#4 ≠ 13#4), (by decide : 9#4 ≠ 14#4), (by decide : 9#4 ≠ 15#4)⟩
  · have hvalid := aluCodes_valid p
    rw [AluOpMap.valid, Bool.and_eq_true, List.all_eq_true] at hvalid
    have hop := of_decide_eq_true (hvalid.2 _ (aluNum_mem_codes p h))
    simp only [List.mem_cons, List.not_mem_nil, or_false, not_or] at hop
    obtain ⟨-, h13, h14, h15⟩ := hop
    exact ⟨h13, h14, h15⟩

/-! ### The decoder on encoded words (R124) -/

/-- The procedure R124 on three words. -/
def decodeShape (p : Params) (w0 w1 w2 : Word) : Except Unassigned Shape :=
  decodeFields p (opField w0) (rdField w0) (modeField w0) (lowField w0) w1 w2

theorem decodeShape_mkWord (p : Params) (op : BitVec 4) (rd m : BitVec 3) (lo : BitVec 6) (w1 w2 : Word) :
    decodeShape p (mkWord op rd m lo) w1 w2 = decodeFields p op rd m lo w1 w2 := by
  unfold decodeShape
  rw [opField_mkWord, rdField_mkWord, modeField_mkWord, lowField_mkWord]

/-- The shape is what the words it encodes to decode to. -/
def DecodesBack (p : Params) (sh : Shape) : Prop :=
  decodeShape p ((sh.encode p).getD 0 0) ((sh.encode p).getD 1 0) ((sh.encode p).getD 2 0) = .ok sh

section AluWords

variable {p : Params} {op : AluOp} {rd : Reg} {m : BitVec 3} {lo : BitVec 6} {w1 w2 : Word}

/-- A word of an ALU row: outside bits 8:6 = 010, and with Rd = 7 outside the branches, the form says the rest. -/
theorem decodeFields_alu (hm : m ≠ 2#3) (hrd : m = 0#3 ∨ m = 1#3 → rd ≠ .pc) :
    decodeFields p (p.aluNum op) rd.num m lo w1 w2 = decodeAlu op rd m lo w1 := by
  obtain ⟨h13, h14, h15⟩ := aluNum_free p op
  have hbranch : ¬ (rd.num = 7#3 ∧ (m = 0#3 ∨ m = 1#3)) := fun h => num_ne_seven (hrd h.2) h.1
  unfold decodeFields
  rw [if_neg (fun h => hm h.2.2.1), if_neg (fun h => hm h.2.2.1), if_neg h15, if_neg hbranch, if_neg h14,
    if_neg (fun h => by rw [aluOf?_aluNum] at h; exact nomatch h.2), if_neg hm, if_neg h13, aluOf?_aluNum, ofNum_num]

/-- A word of a STORE row. -/
theorem decodeFields_storeRow (hm : m ≠ 2#3) (hrd : m = 0#3 ∨ m = 1#3 → rd ≠ .pc) :
    decodeFields p 13#4 rd.num m lo w1 w2 = decodeStore p rd m lo w1 := by
  rw [decodeFields_store hm (fun h => num_ne_seven (hrd h.2) h.1), ofNum_num]

/-- A word of OP = 1110. -/
theorem decodeFields_1110Row (hrd : rd ≠ .pc) : decodeFields p 14#4 rd.num m lo w1 w2 = decode1110 rd m lo := by
  rw [decodeFields_1110 (fun h => num_ne_seven hrd h.1), ofNum_num]

end AluWords

theorem ne_pc_of_isR0toR6 {r : Reg} (h : r.isR0toR6 = true) : r ≠ .pc := of_decide_eq_true h

/-- LOAD and the ALU rows (R125). -/
theorem aluRow (p : Params) (op : AluOp) (rd : Reg) (m : BitVec 3) (lo : BitVec 6) (w1 : Word) (h2 : m ≠ 2#3)
    (hrd : m = 0#3 ∨ m = 1#3 → rd ≠ .pc) :
    decodeShape p (mkWord (p.aluNum op) rd.num m lo) w1 0 = decodeAlu op rd m lo w1 := by
  rw [decodeShape_mkWord, decodeFields_alu h2 hrd]

theorem aluInd_decodesBack (p : Params) (op : AluOp) (rd : Reg) (d : Bool) (m : PtrMode) (rs : Reg) :
    DecodesBack p (.aluInd op rd d m rs) := by
  have hform (lo : BitVec 6) : decodeAlu op rd 3#3 lo 0 =
      .ok (.aluInd op rd (lo.getLsbD 5) (PtrMode.ofNum (lowAt lo)) (Reg.ofNum (lowRs lo))) := rfl
  refine (aluRow p op rd 3#3 _ 0 (by decide) fun h => absurd h (by decide)).trans ?_
  rw [hform, low12_bit, low12_at, low12_rs, bit_getLsbD, ptrMode_ofNum_num, ofNum_num]

/-- Bits 8:6 = 100 with sub-modes 000, 001, 010 and 011. -/
theorem aluReg_decodesBack (p : Params) (op : AluOp) (rd rs : Reg) : DecodesBack p (.aluReg op rd rs) := by
  refine (aluRow p op rd 4#3 _ 0 (by decide) fun h => absurd h (by decide)).trans ?_
  simp [decodeAlu, lowHi_append, lowRs_append]

theorem aluIm16_decodesBack (p : Params) (op : AluOp) (rd rs : Reg) (w : Word) : DecodesBack p (.aluIm16 op rd rs w) := by
  refine (aluRow p op rd 4#3 _ w (by decide) fun h => absurd h (by decide)).trans ?_
  simp [decodeAlu, lowHi_append, lowRs_append]

theorem aluA16_decodesBack (p : Params) (op : AluOp) (b : Bool) (rd rs : Reg) (w : Word)
    (h : isLoadStoring (.aluA16 op b rd rs w) = false) : DecodesBack p (.aluA16 op b rd rs w) := by
  refine (aluRow p op rd 4#3 _ w (by decide) fun h => absurd h (by decide)).trans ?_
  cases b with
  | false => simp [decodeAlu, lowHi_append, lowRs_append, bit]
  | true =>
    have hop : op ≠ .load := by simpa [isLoadStoring] using h
    simp [decodeAlu, lowHi_append, lowRs_append, bit, hop]

theorem aluShift_decodesBack (p : Params) (op : AluOp) (k : Shift4) (rd : Reg) (nn : BitVec 2) (rs : Reg) :
    DecodesBack p (.aluShift op k rd nn rs) := by
  have hasr : ∀ n : BitVec 2, 1#1 ++ n ≠ 0#3 ∧ 1#1 ++ n ≠ 1#3 ∧ 1#1 ++ n ≠ 2#3 ∧ 1#1 ++ n ≠ 3#3 := by decide
  obtain ⟨h0, h1, h2, h3⟩ := hasr nn
  have hform5 (lo : BitVec 6) : decodeAlu op rd 5#3 lo 0 =
      .ok (.aluShift op (if lo.getLsbD 5 then .lsr else .lsl) rd (lowAt lo) (Reg.ofNum (lowRs lo))) := rfl
  have hform6 (lo : BitVec 6) : decodeAlu op rd 6#3 lo 0 =
      .ok (.aluShift op (if lo.getLsbD 5 then .ror else .rol) rd (lowAt lo) (Reg.ofNum (lowRs lo))) := rfl
  have hform4 (lo : BitVec 6) (h : lowHi lo = 1#1 ++ nn) : decodeAlu op rd 4#3 lo 0 =
      .ok (.aluShift op .asr rd (lowAt lo) (Reg.ofNum (lowRs lo))) := by
    unfold decodeAlu
    dsimp only
    rw [h, if_neg h0, if_neg h1, if_neg h2, if_neg h3]
    rfl
  cases k with
  | asr =>
    refine (aluRow p op rd 4#3 _ 0 (by decide) fun h => absurd h (by decide)).trans ((hform4 _ (low12_hi ..)).trans ?_)
    rw [low12_at, low12_rs, ofNum_num]
  | lsl | lsr =>
    refine (aluRow p op rd 5#3 _ 0 (by decide) fun h => absurd h (by decide)).trans ((hform5 _).trans ?_)
    rw [low12_bit, low12_at, low12_rs, ofNum_num]
    rfl
  | rol | ror =>
    refine (aluRow p op rd 6#3 _ 0 (by decide) fun h => absurd h (by decide)).trans ((hform6 _).trans ?_)
    rw [low12_bit, low12_at, low12_rs, ofNum_num]
    rfl

/-! STORE, PUSH and POP (R125, R130, R131, R171). -/

theorem storeRow (p : Params) (rd : Reg) (m : BitVec 3) (lo : BitVec 6) (w1 : Word) (h2 : m ≠ 2#3)
    (hrd : m = 0#3 ∨ m = 1#3 → rd ≠ .pc) :
    decodeShape p (mkWord 13#4 rd.num m lo) w1 0 = decodeStore p rd m lo w1 := by
  rw [decodeShape_mkWord, decodeFields_storeRow h2 hrd]

theorem storeInd_decodesBack (p : Params) (rd : Reg) (d : Bool) (m : PtrMode) (rs : Reg) :
    DecodesBack p (.storeInd rd d m rs) := by
  have hform (lo : BitVec 6) : decodeStore p rd 3#3 lo 0 =
      .ok (.storeInd rd (lo.getLsbD 5) (PtrMode.ofNum (lowAt lo)) (Reg.ofNum (lowRs lo))) := rfl
  refine (storeRow p rd 3#3 _ 0 (by decide) fun h => absurd h (by decide)).trans ?_
  rw [hform, low12_bit, low12_at, low12_rs, bit_getLsbD, ptrMode_ofNum_num, ofNum_num]

theorem storeA16_decodesBack (p : Params) (rd rs : Reg) (w : Word) : DecodesBack p (.storeA16 rd rs w) := by
  refine (storeRow p rd 4#3 _ w (by decide) fun h => absurd h (by decide)).trans ?_
  have hform (lo : BitVec 6) (h : lowHi lo = 0b01#2 ++ p.storeBit) :
      decodeStore p rd 4#3 lo w = .ok (.storeA16 rd (Reg.ofNum (lowRs lo)) w) := if_pos ⟨rfl, h⟩
  rw [hform _ (low21_hi ..), low21_rs, ofNum_num]

theorem push_decodesBack (p : Params) {rd : Reg} {n : BitVec 3} {rs : Reg} (hn : n ≠ 0#3) :
    DecodesBack p (.push rd n rs) := by
  refine (decodeShape_mkWord ..).trans ?_
  have hmulti (w1 w2 : Word) : decodeFields p 13#4 rd.num 2#3 (n ++ rs.num) w1 w2 =
      decodeMulti 13#4 (Reg.ofNum rd.num) (n ++ rs.num) := by simp [decodeFields]
  rw [hmulti, decodeMulti, lowHi_append, lowRs_append, if_neg hn, ofNum_num, ofNum_num]
  rfl

theorem pop_decodesBack (p : Params) {rd : Reg} {n : BitVec 3} {rs : Reg} (hn : n ≠ 0#3)
    (hret : popIsReturn rd n rs = false) : DecodesBack p (.pop rd n rs) := by
  have hlo : ∀ n r : BitVec 3, n ++ r = 0b010000#6 ∨ n ++ r = 0b011000#6 → r = 0#3 ∧ (n = 2#3 ∨ n = 3#3) := by decide
  have hbp (h : rd.num = 5#3) : rd = .bp := (ofNum_num rd).symm.trans (congrArg Reg.ofNum h)
  have hsp (h : rs.num = 0#3) : rs = .sp := (ofNum_num rs).symm.trans (congrArg Reg.ofNum h)
  have hnot (hrd : rd.num = 5#3) (h : n ++ rs.num = 0b010000#6 ∨ n ++ rs.num = 0b011000#6) : False := by
    obtain ⟨hrs, hset⟩ := hlo n rs.num h
    have hpop : popIsReturn rd n rs = true := by
      rw [hbp hrd, hsp hrs]
      rcases hset with rfl | rfl <;> rfl
    exact absurd (hpop.symm.trans hret) Bool.noConfusion
  refine (decodeShape_mkWord ..).trans ?_
  have hmulti (w1 w2 : Word) : decodeFields p 9#4 rd.num 2#3 (n ++ rs.num) w1 w2 =
      decodeMulti 9#4 (Reg.ofNum rd.num) (n ++ rs.num) := by
    unfold decodeFields
    rw [if_neg fun h => hnot h.2.1 (.inl h.2.2.2), if_neg fun h => hnot h.2.1 (.inr h.2.2.2)]
    simp [aluOf?_load]
  rw [hmulti, decodeMulti, lowHi_append, lowRs_append, if_neg hn, ofNum_num, ofNum_num]
  rfl

/-! OP = 1110: bit operations, 16-bit shifts, MUL uu and MULS uu (R132). -/

theorem row1110 (p : Params) {rd : Reg} (m : BitVec 3) (lo : BitVec 6) (w1 w2 : Word) (hrd : rd ≠ .pc) :
    decodeShape p (mkWord 14#4 rd.num m lo) w1 w2 = decode1110 rd m lo := by
  rw [decodeShape_mkWord, decodeFields_1110Row hrd]

theorem bitRegReg_decodesBack (p : Params) (op : BitOp) {rd : Reg} (rs : Reg) (hrd : rd ≠ .pc) :
    DecodesBack p (.bitRegReg op rd rs) := by
  refine (row1110 p 0#3 _ _ _ hrd).trans ?_
  unfold decode1110
  dsimp only
  rw [if_neg hrd, if_pos rfl, low21_bit, if_neg (by decide), low21_lowBit, low21_rs, bitOp_ofNum_num, ofNum_num]

theorem bitRegOff_decodesBack (p : Params) (op : BitOp) {rd : Reg} (off : BitVec 4) (hrd : rd ≠ .pc) :
    DecodesBack p (.bitRegOff op rd off) := by
  refine (row1110 p 1#3 _ _ _ hrd).trans ?_
  unfold decode1110
  dsimp only
  rw [if_neg hrd, if_neg (by decide), if_pos rfl, lowBit_append, lowOff_append, bitOp_ofNum_num]

theorem bitMemReg_decodesBack (p : Params) (op : BitOp) {rd : Reg} (d : Bool) (rs : Reg) (hrd : rd ≠ .pc) :
    DecodesBack p (.bitMemReg op rd d rs) := by
  refine (row1110 p _ _ _ _ hrd).trans ?_
  unfold decode1110
  dsimp only
  rw [if_neg hrd, low21_bit, low21_lowBit, low21_rs, bitOp_ofNum_num, ofNum_num]
  cases d <;> rfl

theorem bitMemOff_decodesBack (p : Params) (op : BitOp) {rd : Reg} (d : Bool) (off : BitVec 4) (hrd : rd ≠ .pc) :
    DecodesBack p (.bitMemOff op rd d off) := by
  refine (row1110 p _ _ _ _ hrd).trans ?_
  unfold decode1110
  dsimp only
  rw [if_neg hrd, lowBit_append, lowOff_append, bitOp_ofNum_num]
  cases d <;> rfl

theorem shift16_decodesBack (p : Params) (k : Shift16) {rd : Reg} (rs : Reg) (hrd : rd ≠ .pc) :
    DecodesBack p (.shift16 k rd rs) := by
  refine (row1110 p _ _ _ _ hrd).trans ?_
  unfold decode1110
  dsimp only
  rw [if_neg hrd, low21_bit, low21_lowBit, low21_rs, ofNum_num]
  cases k <;> rfl

/-! OP = 1111 (R132, R133, R136). -/

theorem row1111 (p : Params) (rd m : BitVec 3) (lo : BitVec 6) (w1 w2 : Word) :
    decodeShape p (mkWord 15#4 rd m lo) w1 w2 = decode1111 p rd m lo w1 w2 := by
  rw [decodeShape_mkWord, decodeFields_1111]

theorem mul_decodesBack (p : Params) (k : MulKind) {rd : Reg} (rs : Reg) (hrd : rd ≠ .pc) :
    DecodesBack p (.mul k rd rs) := by
  have hbits (r : BitVec 3) : (1#3 ++ r).getLsbD 3 = true ∧ lowBit (1#3 ++ r) = 0#2 := by
    revert r
    decide
  obtain ⟨hbit, hlow⟩ := hbits rs.num
  have h7 := num_ne_seven hrd
  cases k with
  | uu =>
    refine (row1110 p 0#3 _ _ _ hrd).trans ?_
    unfold decode1110
    dsimp only
    rw [if_neg hrd, if_pos rfl, if_pos hbit, if_pos hlow, lowRs_append, ofNum_num]
  | us =>
    refine (row1111 p rd.num 0#3 _ _ _).trans ?_
    simp [decode1111, h7, hlow, lowHi_append, lowRs_append]
  | ss =>
    refine (row1111 p rd.num 4#3 _ _ _).trans ?_
    simp [decode1111, h7, lowHi_append, lowRs_append]

theorem muls_decodesBack (p : Params) (k : MulKind) {rd : Reg} (n : BitVec 4) (rs : Reg) (hrd : rd ≠ .pc) :
    DecodesBack p (.muls k rd n rs) := by
  have hn (n : BitVec 4) : n.extractLsb' 3 1 ++ n.extractLsb' 0 3 = n := by
    revert n
    decide
  have hm (n : BitVec 4) : ∀ x : BitVec 1, (x ++ 1#1 ++ n.extractLsb' 3 1).extractLsb' 0 1 = n.extractLsb' 3 1 := by
    revert n
    decide
  have h7 := num_ne_seven hrd
  have htop : n.extractLsb' 3 1 = 0#1 ∨ n.extractLsb' 3 1 = 1#1 := by
    revert n
    decide
  cases k with
  | uu =>
    refine (row1110 p _ _ _ _ hrd).trans ?_
    unfold decode1110
    dsimp only [MulKind.sRd]
    rw [if_neg hrd, lowHi_append, lowRs_append, hm, hn, ofNum_num]
    rcases htop with h | h <;> rw [h] <;> rfl
  | us | ss =>
    refine (row1111 p rd.num _ _ _ _).trans ?_
    unfold decode1111
    dsimp only [MulKind.sRd]
    rw [if_neg h7, lowHi_append, lowRs_append, hm, hn, ofNum_num rd, ofNum_num rs]
    rcases htop with h | h <;> rw [h] <;> rfl

/-- The mode group (R133). -/
theorem mode_decodesBack (p : Params) (lo : BitVec 6) (w1 w2 : Word) :
    decodeShape p (modeWord lo) w1 w2 = decodeMode lo :=
  (row1111 p _ _ _ _ _).trans decode1111_mode

/-- DS and FR access (R133). -/
theorem access_decodesBack (p : Params) (rs : Reg) : DecodesBack p (.rsEqDs rs) ∧ DecodesBack p (.dsEqRs rs) ∧
    DecodesBack p (.rsEqFr rs) ∧ DecodesBack p (.frEqRs rs) := by
  have row (lo : BitVec 6) : decodeShape p (mkWord 15#4 0#3 0#3 lo) 0 0 = decode1111 p 0#3 0#3 lo 0 0 := row1111 ..
  refine ⟨(row _).trans ?_, (row _).trans ?_, (row _).trans ?_, (row _).trans ?_⟩
  all_goals cases rs <;> rfl

/-! The second words of the extended instructions (R137, R138). -/

theorem prefixed (p : Params) (e w2 : Word) (hver : p.ver = .v20) :
    decodeShape p p.prefixWord e w2 = extOrPrefix p e w2 := by
  have hword : p.prefixWord = mkWord 15#4 7#3 p.prefixMode 0#6 := by
    unfold Params.prefixWord Params.prefixMode
    cases p.extPrefix <;> rfl
  rw [hword, row1111]
  unfold decode1111
  dsimp only
  have hmode : p.prefixMode ≠ 5#3 ∧ p.prefixMode ≠ 1#3 ∧ p.prefixMode ≠ 0#3 ∧ p.prefixMode ≠ 2#3 ∧ p.prefixMode ≠ 3#3 := by
    unfold Params.prefixMode
    cases p.extPrefix <;> decide
  obtain ⟨h5, h1, h0, h2, h3⟩ := hmode
  rw [if_neg h5, if_neg h1, if_pos rfl, if_neg h0, if_neg h2, if_neg h3, if_pos ⟨hver, rfl, rfl⟩]
  rfl

/-- A row of the extended table decodes back where its second word does. -/
theorem extRow_decodesBack {p : Params} {e w2 : Word} {sh : Shape} (hver : p.ver = .v20)
    (h : decodeExt p e w2 = .ok sh) : decodeShape p p.prefixWord e w2 = .ok sh := by
  rw [prefixed p e w2 hver, extOrPrefix, h]

theorem extPrefix_decodesBack {p : Params} {e : Word} (hver : p.ver = .v20)
    (hok : (Shape.extPrefix e).operandsOk p = true) : DecodesBack p (.extPrefix e) := by
  refine (prefixed p e 0 hver).trans ?_
  unfold extOrPrefix
  cases h : decodeExt p e 0 with
  | error => rfl
  | ok sh =>
    have hbad : (match decodeExt p e 0 with | .ok _ => false | .error _ => true) = true := hok
    rw [h] at hbad
    exact nomatch hbad

/-- The forms of the extended LOAD and ALU operations, by the fields of the second word (R138). -/
def decodeExtAlu (op : AluOp) (rd m : BitVec 3) (lo : BitVec 6) (w2 : Word) : Except Unassigned Shape :=
  let ra := GReg.ofNum (m.extractLsb' 2 1) rd
  let rb := GReg.ofNum (lo.extractLsb' 3 1) (lowRs lo)
  if m = 0b010#3 then .ok (.extInd op (XReg.ofNum rd) (lo.getLsbD 5) (PtrMode.ofNum (lowAt lo)) (XReg.ofNum (lowRs lo)))
  else if m = 0b110#3 then .ok (.extIm6 op (XReg.ofNum rd) lo)
  else if m = 0b011#3 then .ok (.extBpIm6 op (XReg.ofNum rd) lo)
  else if m = 0b111#3 then .ok (.extA6 op (XReg.ofNum rd) lo)
  else if m = 0b000#3 ∨ m = 0b100#3 then if lowBit lo = 0b00#2 then .ok (.extReg op ra rb) else .error .extWord
  else if lowBit lo = 0b00#2 then .ok (.extIm16 op ra rb w2)
  else if lowBit lo = 0b10#2 then .ok (.extA16 op false ra rb w2)
  else if lowBit lo = 0b11#2 then if op = .load then .error .extWord else .ok (.extA16 op true ra rb w2)
  else .error .extWord

/-- The forms of the extended STORE (R416). -/
def decodeExtStore (p : Params) (rd m : BitVec 3) (lo : BitVec 6) (w2 : Word) : Except Unassigned Shape :=
  if (m = 0b001#3 ∨ m = 0b101#3) ∧ lowBit lo = 0b1#1 ++ p.storeBit then
    .ok (.extStoreA16 (GReg.ofNum (m.extractLsb' 2 1) rd) (GReg.ofNum (lo.extractLsb' 3 1) (lowRs lo)) w2)
  else if m = 0b010#3 then
    .ok (.extStoreInd (XReg.ofNum rd) (lo.getLsbD 5) (PtrMode.ofNum (lowAt lo)) (XReg.ofNum (lowRs lo)))
  else if m = 0b011#3 then .ok (.extStoreBpIm6 (XReg.ofNum rd) lo)
  else if m = 0b111#3 then .ok (.extStoreA6 (XReg.ofNum rd) lo)
  else .error .extWord

section ExtWords

variable (p : Params) (op : AluOp) {rd m : BitVec 3} {lo : BitVec 6} (w2 : Word)

theorem decodeExt_alu (hm : m = 0#3 → lowBit lo ≠ 2#2) :
    decodeExt p (mkWord (p.aluNum op) rd m lo) w2 = decodeExtAlu op rd m lo w2 := by
  unfold decodeExt
  rw [opField_mkWord, rdField_mkWord, modeField_mkWord, lowField_mkWord, if_neg fun h => hm h.1 h.2,
    if_neg (aluNum_free p op).1, aluOf?_aluNum]
  rfl

theorem decodeExt_store (hm : m = 0#3 → lowBit lo ≠ 2#2) :
    decodeExt p (mkWord 13#4 rd m lo) w2 = decodeExtStore p rd m lo w2 := by
  unfold decodeExt
  rw [opField_mkWord, rdField_mkWord, modeField_mkWord, lowField_mkWord, if_neg fun h => hm h.1 h.2, if_pos rfl]
  rfl

end ExtWords

theorem hi_append (b : BitVec 1) (x : BitVec 2) : (b ++ x : BitVec 3).extractLsb' 2 1 = b := by
  revert b x
  decide

/-- The mode field of the rows with `Ra`. -/
theorem hi_append_cases (g : GReg) (x : BitVec 2) : g.hi ++ x = 0#1 ++ x ∨ g.hi ++ x = 1#1 ++ x := by
  cases g with
  | core => exact .inl rfl
  | ext => exact .inr rfl

section ExtRows

variable {p : Params} (hver : p.ver = .v20) (op : AluOp) (ra rb : GReg) (rx ry : XReg) (w : Word) (im : BitVec 6) (d : Bool)
  (m : PtrMode)

include hver

theorem extReg_decodesBack : DecodesBack p (.extReg op ra rb) := by
  refine extRow_decodesBack hver ((decodeExt_alu p op 0 fun _ => ?_).trans ?_)
  · rw [low21_lowBit]; decide
  · unfold decodeExtAlu
    rw [low21_lowBit, low21_rs, low21_mid, hi_append, gregOfNum, gregOfNum]
    rcases hi_append_cases ra 0#2 with h | h <;> rw [h] <;> rfl

theorem extIm16_decodesBack : DecodesBack p (.extIm16 op ra rb w) := by
  refine extRow_decodesBack hver ((decodeExt_alu p op w fun _ => ?_).trans ?_)
  · rw [low21_lowBit]; decide
  · unfold decodeExtAlu
    rw [low21_lowBit, low21_rs, low21_mid, hi_append, gregOfNum, gregOfNum]
    rcases hi_append_cases ra 1#2 with h | h <;> rw [h] <;> rfl

theorem extA16_decodesBack {b : Bool} (h : isLoadStoring (.extA16 op b ra rb w) = false) :
    DecodesBack p (.extA16 op b ra rb w) := by
  refine extRow_decodesBack hver ((decodeExt_alu p op w fun h0 => ?_).trans ?_)
  · rcases hi_append_cases ra 1#2 with h | h <;> rw [h] at h0 <;> exact absurd h0 (by decide)
  · unfold decodeExtAlu
    rw [low21_lowBit, low21_rs, low21_mid, hi_append, gregOfNum, gregOfNum]
    cases b with
    | false => rcases hi_append_cases ra 1#2 with h | h <;> rw [h] <;> rfl
    | true =>
      have hop : op ≠ .load := by simpa [isLoadStoring] using h
      dsimp only
      rw [if_neg hop]
      rcases hi_append_cases ra 1#2 with h | h <;> rw [h] <;> rfl

theorem extInd_decodesBack : DecodesBack p (.extInd op rx d m ry) := by
  refine extRow_decodesBack hver ((decodeExt_alu p op 0 fun h => absurd h (by decide)).trans ?_)
  unfold decodeExtAlu
  rw [low12_bit, low12_at, low12_rs, bit_getLsbD, ptrMode_ofNum_num, xofNum_num, xofNum_num]
  rfl

theorem extShort_decodesBack : DecodesBack p (.extIm6 op rx im) ∧ DecodesBack p (.extBpIm6 op rx im) ∧
    DecodesBack p (.extA6 op rx im) := by
  refine ⟨extRow_decodesBack hver ((decodeExt_alu p op 0 fun h => absurd h (by decide)).trans ?_),
    extRow_decodesBack hver ((decodeExt_alu p op 0 fun h => absurd h (by decide)).trans ?_),
    extRow_decodesBack hver ((decodeExt_alu p op 0 fun h => absurd h (by decide)).trans ?_)⟩
  all_goals
    unfold decodeExtAlu
    rw [xofNum_num]
    rfl

theorem extStoreA16_decodesBack : DecodesBack p (.extStoreA16 ra rb w) := by
  refine extRow_decodesBack hver ((decodeExt_store p w fun h0 => ?_).trans ?_)
  · rcases hi_append_cases ra 1#2 with h | h <;> rw [h] at h0 <;> exact absurd h0 (by decide)
  · have hmode : ra.hi ++ 1#2 = 1#3 ∨ ra.hi ++ 1#2 = 5#3 := hi_append_cases ra 1#2
    unfold decodeExtStore
    rw [low21_lowBit, low21_rs, low21_mid, hi_append, gregOfNum, gregOfNum, if_pos ⟨hmode, rfl⟩]

theorem extStoreInd_decodesBack : DecodesBack p (.extStoreInd rx d m ry) := by
  refine extRow_decodesBack hver ((decodeExt_store p 0 fun h => absurd h (by decide)).trans ?_)
  unfold decodeExtStore
  rw [low12_bit, low12_at, low12_rs, bit_getLsbD, ptrMode_ofNum_num, xofNum_num, xofNum_num]
  rfl

theorem extStoreShort_decodesBack : DecodesBack p (.extStoreBpIm6 rx im) ∧ DecodesBack p (.extStoreA6 rx im) := by
  refine ⟨extRow_decodesBack hver ((decodeExt_store p 0 fun h => absurd h (by decide)).trans ?_),
    extRow_decodesBack hver ((decodeExt_store p 0 fun h => absurd h (by decide)).trans ?_)⟩
  all_goals
    unfold decodeExtStore
    rw [xofNum_num]
    rfl

/-- The extended PUSH and POP: bit 15 tells them apart, and bits 14:12 are the size (R417, R418). -/
theorem extPushPop_decodesBack {n : BitVec 3} (fld : BitVec 3) (hn : n ≠ 0#3) :
    DecodesBack p (.extPush n rx rb) ∧ DecodesBack p (.extPop n fld rb) := by
  have hsize : ∀ (b : BitVec 1) (n : BitVec 3), (b ++ n : BitVec 4).extractLsb' 0 3 = n ∧
      (b ++ n : BitVec 4).getLsbD 3 = b.getLsbD 0 := by decide
  have fields (b : BitVec 1) (rd : BitVec 3) : decodeExt p (mkWord (b ++ n) rd 0#3 (2#2 ++ rb.hi ++ rb.lo)) 0 =
      if b.getLsbD 0 then .ok (.extPush n (XReg.ofNum rd) rb) else .ok (.extPop n rd rb) := by
    unfold decodeExt
    rw [opField_mkWord, rdField_mkWord, modeField_mkWord, lowField_mkWord]
    dsimp only
    rw [low21_lowBit, low21_rs, low21_mid, gregOfNum, (hsize b n).1, (hsize b n).2, if_pos ⟨rfl, rfl⟩, if_neg hn]
  refine ⟨extRow_decodesBack hver ((fields 1#1 rx.num).trans ?_), extRow_decodesBack hver ((fields 0#1 fld).trans rfl)⟩
  rw [xofNum_num]
  rfl

end ExtRows

/-! Control transfer (R126, R131, R132). -/

theorem retf_decodesBack (p : Params) : DecodesBack p .retf := by
  have hword : mkWord 9#4 5#3 2#3 16#6 = 0x9A90#16 := by decide
  have hretf : decodeShape p 0x9A90#16 0 0 = .ok .retf := by
    rw [← hword, decodeShape_mkWord]
    exact if_pos ⟨rfl, rfl, rfl, rfl⟩
  exact hretf

theorem reti_decodesBack (p : Params) : DecodesBack p .reti := by
  have hword : mkWord 9#4 5#3 2#3 24#6 = 0x9A98#16 := by decide
  have hreti : decodeShape p 0x9A98#16 0 0 = .ok .reti := by
    rw [← hword, decodeShape_mkWord]
    exact (if_neg fun h => absurd h.2.2.2 (by decide)).trans (if_pos ⟨rfl, rfl, rfl, rfl⟩)
  exact hreti

theorem branch_decodesBack (p : Params) (c : Cond) (back : Bool) (im : BitVec 6) : DecodesBack p (.branch c back im) := by
  have hcond : c.num ≠ 15#4 ∧ Cond.ofNum? c.num = some c := by cases c <;> decide
  have hmode : (0#2 ++ bit back = 0#3 ∨ 0#2 ++ bit back = 1#3) ∧ (0#2 ++ bit back).getLsbD 0 = back := by
    cases back <;> decide
  refine (decodeShape_mkWord ..).trans ?_
  unfold decodeFields
  rw [if_neg fun h => absurd h.2.1 (by decide), if_neg fun h => absurd h.2.1 (by decide), if_neg hcond.1,
    if_pos ⟨rfl, hmode.1⟩, hcond.2, hmode.2]

theorem call_decodesBack (p : Params) (hi : BitVec 6) (lo : Word) : DecodesBack p (.call hi lo) := by
  refine (row1111 ..).trans ?_
  unfold decode1111
  dsimp only
  rw [if_neg (by decide), if_pos rfl, if_neg fun h => absurd h.2 (by decide)]
  rfl

theorem bitA16_decodesBack {p : Params} (hver : p.ver = .v20) (op : BitOp) (d : Bool) (off : BitVec 4) (a : Word) :
    DecodesBack p (.bitA16 op d off a) := by
  have hrd : (0#1 ++ bit d ++ 1#1 : BitVec 3).getLsbD 0 = true ∧ (0#1 ++ bit d ++ 1#1 : BitVec 3).getLsbD 1 = d := by
    cases d <;> decide
  refine (row1111 ..).trans ?_
  unfold decode1111
  dsimp only
  rw [if_neg (by decide), if_pos rfl, if_pos ⟨hver, hrd.1⟩, hrd.2, lowBit_append, lowOff_append, bitOp_ofNum_num]
  rfl

/-- Every shape that the version has and the encoding admits is what its words decode to. -/
theorem encode_decodesBack {p : Params} {sh : Shape} (hver : sh.availableIn p.ver = true) (hok : sh.operandsOk p = true)
    (hload : isLoadStoring sh = false) : DecodesBack p sh := by
  have v20 (h : decide (p.ver = .v20) = true) : p.ver = .v20 := of_decide_eq_true h
  cases sh with
  | retf => exact retf_decodesBack p
  | reti => exact reti_decodesBack p
  | branch c back im => exact branch_decodesBack ..
  | dsIm6 im => exact row1111 ..
  | goto hi lo => exact row1111 ..
  | gotoMr => exact row1111 ..
  | call hi lo => exact call_decodesBack ..
  | bitA16 op d off a => exact bitA16_decodesBack (v20 hver) op d off a
  | extPrefix e => exact extPrefix_decodesBack (v20 hver) hok
  | aluBpIm6 op rd im => exact aluRow p op rd 0#3 im 0 (by decide) fun _ => ne_pc_of_isR0toR6 hok
  | aluIm6 op rd im => exact aluRow p op rd 1#3 im 0 (by decide) fun _ => ne_pc_of_isR0toR6 hok
  | aluInd op rd d m rs => exact aluInd_decodesBack ..
  | aluReg op rd rs => exact aluReg_decodesBack ..
  | aluIm16 op rd rs im => exact aluIm16_decodesBack ..
  | aluA16 op w rd rs a => exact aluA16_decodesBack p op w rd rs a hload
  | aluShift op k rd nn rs => exact aluShift_decodesBack ..
  | aluA6 op rd a => exact aluRow p op rd 7#3 a 0 (by decide) fun h => absurd h (by decide)
  | storeBpIm6 rd im => exact storeRow p rd 0#3 im 0 (by decide) fun _ => ne_pc_of_isR0toR6 hok
  | storeInd rd d m rs => exact storeInd_decodesBack ..
  | storeA16 rd rs a => exact storeA16_decodesBack ..
  | storeA6 rd a => exact storeRow p rd 7#3 a 0 (by decide) fun h => absurd h (by decide)
  | push rd n rs => exact push_decodesBack p (of_decide_eq_true hok)
  | pop rd n rs =>
    obtain ⟨hn, hret⟩ := Bool.and_eq_true_iff.mp hok
    exact pop_decodesBack p (of_decide_eq_true hn) ((Bool.not_eq_true' _).mp hret)
  | bitRegReg op rd rs => exact bitRegReg_decodesBack p op rs (ne_pc_of_isR0toR6 hok)
  | bitRegOff op rd off => exact bitRegOff_decodesBack p op off (ne_pc_of_isR0toR6 hok)
  | bitMemReg op rd d rs => exact bitMemReg_decodesBack p op d rs (ne_pc_of_isR0toR6 hok)
  | bitMemOff op rd d off => exact bitMemOff_decodesBack p op d off (ne_pc_of_isR0toR6 hok)
  | shift16 k rd rs => exact shift16_decodesBack p k rs (ne_pc_of_isR0toR6 hok)
  | mul k rd rs => exact mul_decodesBack p k rs (ne_pc_of_isR0toR6 hok)
  | muls k rd n rs => exact muls_decodesBack p k n rs (ne_pc_of_isR0toR6 hok)
  | int f i => exact (mode_decodesBack p _ 0 0).trans (by cases f <;> cases i <;> rfl)
  | firMov b | fraction b | irq b | secbank b | fiq b | irqnest b =>
    exact (mode_decodesBack p _ 0 0).trans (by cases b <;> rfl)
  | brk | callMr | divs | divq | exp | nop => exact (mode_decodesBack p _ 0 0).trans rfl
  | rsEqDs rs => exact (access_decodesBack p rs).1
  | dsEqRs rs => exact (access_decodesBack p rs).2.1
  | rsEqFr rs => exact (access_decodesBack p rs).2.2.1
  | frEqRs rs => exact (access_decodesBack p rs).2.2.2
  | extReg op ra rb => exact extReg_decodesBack (v20 hver) op ra rb
  | extIm16 op ra rb im => exact extIm16_decodesBack (v20 hver) op ra rb im
  | extA16 op w ra rb a => exact extA16_decodesBack (v20 hver) op ra rb a hload
  | extInd op rx d m ry => exact extInd_decodesBack (v20 hver) op rx ry d m
  | extIm6 op rx im => exact (extShort_decodesBack (v20 hver) op rx im).1
  | extBpIm6 op rx im => exact (extShort_decodesBack (v20 hver) op rx im).2.1
  | extA6 op rx a => exact (extShort_decodesBack (v20 hver) op rx a).2.2
  | extStoreA16 ra rb a => exact extStoreA16_decodesBack (v20 hver) ra rb a
  | extStoreInd rx d m ry => exact extStoreInd_decodesBack (v20 hver) rx ry d m
  | extStoreBpIm6 rx im => exact (extStoreShort_decodesBack (v20 hver) rx im).1
  | extStoreA6 rx a => exact (extStoreShort_decodesBack (v20 hver) rx a).2
  | extPush n rx rb => exact (extPushPop_decodesBack (v20 hver) rb rx 0 (of_decide_eq_true hok)).1
  | extPop n fld rb => exact (extPushPop_decodesBack (v20 hver) rb .r8 fld (of_decide_eq_true hok)).2

/-- Settles O1, by the cases of the shape: each row of the tables decodes back. -/
theorem decodeOfEncode : Obligations.DecodeOfEncode := by
  intro p i h
  obtain ⟨hver, hok⟩ := Bool.and_eq_true_iff.mp h
  have hshape := toInstr_shape i
  have hload : isLoadStoring i.shape = false := by
    rcases toInstr_cases i.shape with ⟨-, hnone⟩ | ⟨hload, -⟩
    · exact nomatch hnone.symm.trans hshape
    · exact hload
  exact decode_eq_ok_iff.2 ⟨i.shape, encode_decodesBack hver hok hload, hver, hshape⟩

end Sys2Proof.Proofs

namespace Sys2Proof.Proofs

open Sys2Proof Sys2Proof.Machine Sys2Proof.Laws

/-! ### What one register write leaves

The instructions of this part end in a single write of Rd, so each shares this frame. -/

/-- `t` differs from `s` in Rd alone, and in SR or PC where Rd is that register. -/
def OnlyWritten (rd : Reg) (s t : State) : Prop :=
  RegsSameBut (.core rd) s t ∧ (rd ≠ .sr → t.status = s.status) ∧ (rd ≠ .pc → t.pc = s.pc) ∧ MemSame s t ∧ SysSame s t

theorem core_ne_core {r q : Reg} (h : r ≠ q) : GReg.core r ≠ .core q := fun e => h (GReg.core.inj e)

theorem setReg_onlyWritten (s : State) (rd : Reg) (v : Word) : OnlyWritten rd s (s.setReg rd v) :=
  ⟨fun q hq _ _ => setGreg_greg_other s (.core rd) q v hq,
    fun h => setGreg_status s (.core rd) v (core_ne_core h), fun h => setGreg_pc s (.core rd) v (core_ne_core h),
    setGreg_memSame s (.core rd) v, setGreg_sysSame s (.core rd) v⟩

/-- Settles O30: each of the three shifts is one register write. -/
theorem shift16Frame : Obligations.Shift16Frame := by
  intro rd rs s i hi
  have hone (v : Word) (h : exec i s = .next (s.setReg rd v)) :
      ∃ t : State, exec i s = .next t ∧ OnlyWritten rd s t := ⟨_, h, setReg_onlyWritten s rd v⟩
  simp only [List.mem_cons, List.not_mem_nil, or_false] at hi
  obtain rfl | rfl | rfl := hi
  · exact hone _ (exec_asr16 rd rs s)
  · exact hone _ (exec_lsl16 rd rs s)
  · exact hone _ (exec_lsr16 rd rs s)

/-! ### Bit operations on a register (R290 to R296) -/

theorem setZOfBit_regsSame (s : State) (w : Word) (k : BitVec 4) : RegsSame s (s.setZOfBit w k) :=
  fun q hq _ => status_greg s _ q hq

theorem bitReg_done (op : BitOp) (rd : Reg) (k : BitVec 4) (s : State) : BitRegDone (bitReg op rd k s) op rd k s := by
  have hstatus := setZOfBit_status s (s.reg rd) k
  have hregs := setZOfBit_regsSame s (s.reg rd) k
  by_cases hop : op = .tst
  · exact ⟨_, if_pos hop, fun _ => ⟨hstatus, hregs, rfl⟩, fun h => absurd hop h, memSame_refl s, sysSame_refl s⟩
  · obtain ⟨hother, hsr, hpc, hmem, hsys⟩ :=
      setReg_onlyWritten (s.setZOfBit (s.reg rd) k) rd (bitResult op (s.reg rd) k)
    refine ⟨_, if_neg hop, fun h => absurd h hop, fun _ => ⟨?changed, ?others, fun h => (hsr h).trans hstatus, hpc⟩,
      hmem, hsys⟩
    case changed =>
      rw [setReg_reg_same]
      exact bitResult_changed op k (s.reg rd)
    case others => exact fun q hq hqs hqp => (hother q hq hqs hqp).trans (hregs q hqs hqp)

/-- Settles O27: every form is the shared bit operation at its own index. -/
theorem bitRegisterForms : Obligations.BitRegisterForms := by
  intro rd rs k s
  have off (op : BitOp) := bitReg_done op rd k s
  have idx (op : BitOp) := bitIndex_eq s rs ▸ bitReg_done op rd (bitIndex s rs) s
  exact ⟨off .tst, off .set, off .clr, off .inv, idx .tst, idx .set, idx .clr, idx .inv⟩

/-! ### DS, SS, MDS and FR (R310 to R319) -/

/-- The low bits of a word as a field of their own. -/
theorem extractLsb'_zero_eq_ofNat (w : Word) (n : Nat) : w.extractLsb' 0 n = BitVec.ofNat n w.toNat :=
  BitVec.eq_of_toNat_eq (by rw [BitVec.extractLsb'_toNat, BitVec.toNat_ofNat, Nat.shiftRight_zero])

/-- A page filled with zeros. -/
theorem toNat_setWidth_page (p : Page) : (p.setWidth 16).toNat = p.toNat := BitVec.toNat_setWidth_of_le (by decide)

/-- A special register read into Rs. -/
theorem setReg_read (s : State) {rs : Reg} (v : Word) (hpc : rs ≠ .pc) :
    (s.setReg rs v).reg rs = v ∧ RegsSameBut (.core rs) s (s.setReg rs v) ∧
      (rs ≠ .sr → (s.setReg rs v).status = s.status) ∧ (s.setReg rs v).pc = s.pc ∧ MemSame s (s.setReg rs v) ∧
      SysSame s (s.setReg rs v) :=
  have ⟨hregs, hsr, hpc', hmem, hsys⟩ := setReg_onlyWritten s rs v
  ⟨setReg_reg_same s rs v, hregs, hsr, hpc' hpc, hmem, hsys⟩

/-- Settles O41: the writes of DS leave the rest as it is, and the read of DS is one register write. -/
theorem dataSegmentAccess : Obligations.DataSegmentAccess := by
  intro im rs s
  refine ⟨rfl, ?_, fun hpc => ?_, rfl⟩
  · rw [← extractLsb'_zero_eq_ofNat]
    rfl
  · obtain ⟨hread, hrest⟩ := setReg_read s (s.status.ds.setWidth 16) hpc
    exact ⟨_, if_neg hpc, (congrArg BitVec.toNat hread).trans (toNat_setWidth_page _), hrest⟩

/-- One bit of a word as a field. -/
theorem ofBool_getLsbD (w : Word) (k : Nat) : BitVec.ofBool (w.getLsbD k) = w.extractLsb' k 1 := by
  ext i hi
  obtain rfl : i = 0 := by omega
  simp

/-- A word is its fields in the layout of FR (R31). -/
theorem frFields_append (w : Word) :
    BitVec.ofBool (w.getLsbD 15) ++ BitVec.ofBool (w.getLsbD 14) ++ BitVec.ofBool (w.getLsbD 13) ++
      BitVec.ofBool (w.getLsbD 12) ++ BitVec.ofBool (w.getLsbD 11) ++ w.extractLsb' 7 4 ++ BitVec.ofBool (w.getLsbD 6) ++
      BitVec.ofBool (w.getLsbD 5) ++ BitVec.ofBool (w.getLsbD 4) ++ w.extractLsb' 0 4 = w := by
  simp only [ofBool_getLsbD, BitVec.extractLsb'_append_extractLsb'_eq_extractLsb']
  exact BitVec.extractLsb'_eq_self

/-- FR reads back what was written to it (R31, R314). -/
theorem setFr_frWord (s : State) (w : Word) : (s.setFr w).frWord = w := by
  have hbuf : (s.setFr w).shiftBuf = w.extractLsb' 7 4 := setShiftBuf_shiftBuf s _
  rw [State.frWord, hbuf]
  exact frFields_append w

theorem exec_rsEqFr {rd : Reg} (hpc : rd ≠ .pc) (s : State) : exec (.rsEqFr rd) s = .next (s.setReg rd s.frWord) :=
  if_neg hpc

/-- Settles O42: `FR = Rs` writes the fields, `Rs = FR` is one register write, and the word reads back. -/
theorem flagRegisterAccess : Obligations.FlagRegisterAccess := by
  intro rs rd s w
  refine ⟨⟨s.setFr w, rfl, ?flags, ?rest, fun hpc => ⟨_, exec_rsEqFr hpc _, ?back⟩⟩, fun hpc => ?read, rfl⟩
  case flags => rw [← extractLsb'_zero_eq_ofNat]; rfl
  case rest => rw [← setShiftBuf_eq_withShiftBuf]; rfl
  case back => rw [setReg_reg_same, setFr_frWord]
  case read => exact ⟨_, exec_rsEqFr hpc s, setReg_read s s.frWord hpc⟩

/-- MDS keeps bits 13:8 and 5:0 of a word (R43, R317). -/
theorem setMds_mdsWord (s : State) (w : Word) : (s.setMds w).mdsWord = w &&& 0x3F3F#16 := by
  have hfields : (s.setMds w).mdsWord = 0#2 ++ w.extractLsb' 8 6 ++ 0#2 ++ w.extractLsb' 0 6 := rfl
  have hmask : (0x3F3F#16 : Word) = 0#2 ++ 63#6 ++ 0#2 ++ 63#6 := by decide
  have hparts : w = w.extractLsb' 14 2 ++ w.extractLsb' 8 6 ++ w.extractLsb' 6 2 ++ w.extractLsb' 0 6 := by
    simp only [BitVec.extractLsb'_append_extractLsb'_eq_extractLsb']
    exact BitVec.extractLsb'_eq_self.symm
  have hall (x : BitVec 6) : x &&& 63#6 = x := BitVec.and_allOnes
  rw [hfields, hmask]
  conv_rhs => rw [hparts]
  rw [BitVec.and_append, BitVec.and_append, BitVec.and_append, hall, hall, BitVec.and_zero, BitVec.and_zero]

/-- Settles O43: SS and MDS are fields of their own, and their reads are register writes. -/
theorem stackAndProductSegments : Obligations.StackAndProductSegments := by
  intro rs s
  have hmds (t : State) : exec13 .r3EqMds t = .next (t.setReg .r3 t.mdsWord) := rfl
  refine ⟨?ss, fun hpc => ?readSs, rfl, ?readMds, ?mds⟩
  case ss => rw [← extractLsb'_zero_eq_ofNat]; rfl
  case readSs =>
    obtain ⟨hread, hrest⟩ := setReg_read s (s.ss.setWidth 16) hpc
    exact ⟨_, if_neg hpc, (congrArg BitVec.toNat hread).trans (toNat_setWidth_page _), hrest⟩
  case readMds =>
    obtain ⟨hread, hregs, hsr, hrest⟩ := setReg_read s (rs := .r3) s.mdsWord (by decide)
    exact ⟨_, hmds s, hread, hregs, hsr (by decide), hrest⟩
  case mds =>
    refine ⟨s.setMds (s.reg .r3), _, rfl, ?_, hmds _, ?_⟩
    · have hhigh : (s.reg .r3).extractLsb' 8 6 = BitVec.ofNat 6 ((s.reg .r3).toNat / 256) :=
        BitVec.eq_of_toNat_eq (by rw [BitVec.extractLsb'_toNat, BitVec.toNat_ofNat, Nat.shiftRight_eq_div_pow])
      rw [State.setMds, hhigh, extractLsb'_zero_eq_ofNat]
    · rw [setReg_reg_same, setMds_mdsWord]

/-! ### The mode instructions (R361, R365 to R368) -/

section Modes

variable (p : Params) (on : Bool)

theorem encode_firMov : encode p (.firMov on) = [0b1111000101#10 ++ (0b00010#5 ++ bit on)] :=
  congrArg (fun w => [w]) (modeWord_eq_append _)

theorem encode_fraction : encode p (.fraction on) = [0b1111000101#10 ++ (0b00011#5 ++ bit on)] :=
  congrArg (fun w => [w]) (modeWord_eq_append _)

theorem encode_secbank : encode p (.secbank on) = [0b1111000101#10 ++ (0b00101#5 ++ bit on)] :=
  congrArg (fun w => [w]) (modeWord_eq_append _)

theorem encode_irqnest : encode p (.irqnest on) = [0b1111000101#10 ++ (0b0011#4 ++ bit on ++ 0b1#1)] :=
  congrArg (fun w => [w]) (modeWord_eq_append _)

theorem encode_nop : encode p .nop = [0b1111000101#10 ++ 0b100101#6] :=
  congrArg (fun w => [w]) (modeWord_eq_append _)

end Modes

/-- Settles O45: each instruction writes its own bit of FR, and its printed words are those its bit gives. -/
theorem modeInstructions : Obligations.ModeInstructions := fun p _ _ =>
  ⟨rfl, rfl, rfl, rfl, rfl, encode_firMov p false, encode_firMov p true, encode_fraction p true, encode_fraction p false,
    encode_secbank p true, encode_secbank p false, encode_irqnest p true, encode_irqnest p false, encode_nop p⟩

/-! ### The instructions that hold sampling back (R459) -/

theorem isRA16_iff (sh : Shape) : isRA16 sh = true ↔
    (∃ (op : AluOp) (rd rs : Reg) (a : Word), sh = .aluA16 op false rd rs a) ∨
    (∃ (op : AluOp) (ra rb : GReg) (a : Word), sh = .extA16 op false ra rb a) := by
  cases sh <;> simp [isRA16]

theorem isRW16_iff (sh : Shape) : isRW16 sh = true ↔
    (∃ (op : AluOp) (rd rs : Reg) (a : Word), sh = .aluA16 op true rd rs a) ∨
    (∃ (op : AluOp) (ra rb : GReg) (a : Word), sh = .extA16 op true ra rb a) ∨
    (∃ (rd rs : Reg) (a : Word), sh = .storeA16 rd rs a) ∨ (∃ (ra rb : GReg) (a : Word), sh = .extStoreA16 ra rb a) := by
  cases sh <;> simp [isRW16]

/-- A shape that an instruction has is that of no other. -/
theorem shape_eq_iff (i j : Instr) : i.shape = j.shape ↔ i = j := ⟨eq_of_shape, congrArg Instr.shape⟩

/-- Settles O58: the lists of R459 are the two properties of shapes and RETI. -/
theorem noSamplingAfter : Obligations.NoSamplingAfter := by
  unfold Obligations.NoSamplingAfter
  intro reads writes
  have hreads (i : Instr) : isRA16 i.shape = true ↔ reads i := isRA16_iff i.shape
  have hreti (i : Instr) : i.shape = .reti ↔ i = .reti := shape_eq_iff i .reti
  have hstore (i : Instr) (rd rs : Reg) (a : Word) : i.shape = .storeA16 rd rs a ↔ i = .storeA16 rd rs a :=
    shape_eq_iff i (.storeA16 rd rs a)
  have hext (i : Instr) (ra rb : GReg) (a : Word) : i.shape = .extStoreA16 ra rb a ↔ i = .extStoreA16 ra rb a :=
    shape_eq_iff i (.extStoreA16 ra rb a)
  have hwrites (i : Instr) : isRW16 i.shape = true ↔ writes i := by
    rw [isRW16_iff]
    simp only [hstore, hext]
    exact Iff.rfl
  refine ⟨fun i => ⟨rfl, rfl, hreads i, ?_, ?_⟩, fun i => ?_⟩
  · simp only [noSampleAfter, Bool.or_eq_true, decide_eq_true_eq, hreads, hreti]
  · simp only [noSampleAfter, Bool.or_eq_true, decide_eq_true_eq, hreads, hwrites, hreti, or_assoc]
  · simp only [noSampleAfter13, Bool.or_eq_true, decide_eq_true_eq]

/-! ### Jumps (R335, R350, R352, R353) -/

/-- Settles O50: both jump to their target and write nothing else. -/
theorem gotoJumps : Obligations.GotoJumps := fun hi lo s =>
  ⟨⟨_, rfl, (congrArg BitVec.toNat (jump_nextPc _ _)).trans (mkAddr_toNat hi lo), jump_onlyJumped s _⟩,
    ⟨_, rfl, (congrArg BitVec.toNat (jump_nextPc _ _)).trans (mrTarget_toNat s), jump_onlyJumped s _⟩⟩

/-- The 22-bit target of a branch, without the page rule of [1.0]. -/
theorem step_eq_ofInt (a : Addr) (back : Bool) (im : BitVec 6) :
    (if back then a - im.setWidth 22 else a + im.setWidth 22) =
      BitVec.ofInt 22 (a.toNat + if back then -(im.toNat : Int) else im.toNat) := by
  have him : BitVec.ofInt 22 (im.toNat : Int) = im.setWidth 22 := by
    rw [BitVec.ofInt_natCast, BitVec.ofNat_toNat]
  have ha : BitVec.ofInt 22 (a.toNat : Int) = a := by rw [BitVec.ofInt_natCast, BitVec.ofNat_toNat, BitVec.setWidth_eq]
  cases back with
  | false => rw [if_neg Bool.false_ne_true, if_neg Bool.false_ne_true, BitVec.ofInt_add, him, ha]
  | true => rw [if_pos rfl, if_pos rfl, BitVec.ofInt_add, BitVec.ofInt_neg, him, ha, BitVec.sub_eq_add_neg]

/-- The offset of an address counted over 22 bits is counted over 16. -/
theorem offsetOf_ofInt (x : Int) : offsetOf (BitVec.ofInt 22 x) = BitVec.ofInt 16 x := by
  apply BitVec.eq_of_toNat_eq
  rw [offsetOf_toNat, BitVec.toNat_ofInt, BitVec.toNat_ofInt]
  omega

/-- The page does not show in the offset. -/
theorem ofInt_page_add (k x : Int) : BitVec.ofInt 16 (k * 65536 + x) = BitVec.ofInt 16 x := by
  apply BitVec.eq_of_toNat_eq
  rw [BitVec.toNat_ofInt, BitVec.toNat_ofInt]
  omega

theorem jump_branchesTo (back : Bool) (im : BitVec 6) (s : State) :
    BranchesTo back im s (s.jump (branchTarget s back im)) := by
  unfold BranchesTo branchTarget
  dsimp only
  rw [step_eq_ofInt, jump_nextPc]
  split
  · refine ⟨pageOf_mkAddr _ _, (offsetOf_mkAddr _ _).trans ?_⟩
    rw [State.nextPc, mkAddr_toNat, offsetOf_ofInt]
    push_cast
    rw [add_assoc, ofInt_page_add]
  · rfl

/-- JMP is always taken (R350). -/
theorem exec_jmp (back : Bool) (im : BitVec 6) (s : State) :
    exec (.jmp back im) s = .next (s.jump (branchTarget s back im)) :=
  have hbranch : exec (.jmp back im) s = branch .always back im s := rfl
  hbranch.trans (if_pos rfl)

/-- A taken branch goes to its target; one not taken goes on. -/
theorem branch_branchDone {i : Instr} {c : Cond} {back : Bool} {im : BitVec 6} (hi : i.shape = .branch c back im)
    (s : State) {taken : Bool} (htaken : taken = condHolds c s.status) : BranchDone (exec i s) taken back im s := by
  cases taken with
  | false =>
    exact ⟨s, exec_branch_of_not_condHolds hi htaken.symm, fun h => absurd h Bool.false_ne_true, fun _ => rfl⟩
  | true =>
    exact ⟨_, (exec_branch_of_condHolds hi htaken.symm).trans (exec_jmp back im s),
      fun _ => ⟨jump_branchesTo back im s, jump_onlyJumped s _⟩, fun h => absurd h.symm Bool.false_ne_true⟩

/-- Settles O49: every branch is the shared one with its own condition. -/
theorem branchesGoToTheirTargets : Obligations.BranchesGoToTheirTargets := by
  intro back im s
  refine ⟨branch_branchDone (c := .cc) rfl s ?_, branch_branchDone (c := .cs) rfl s ?_,
    branch_branchDone (c := .sc) rfl s ?_, branch_branchDone (c := .ss) rfl s ?_, branch_branchDone (c := .ne) rfl s ?_,
    branch_branchDone (c := .z) rfl s ?_, branch_branchDone (c := .pl) rfl s ?_, branch_branchDone (c := .mi) rfl s ?_,
    branch_branchDone (c := .be) rfl s ?_, branch_branchDone (c := .nbe) rfl s ?_,
    branch_branchDone (c := .le) rfl s ?_, branch_branchDone (c := .nle) rfl s ?_,
    branch_branchDone (c := .vc) rfl s ?_, branch_branchDone (c := .vs) rfl s ?_,
    branch_branchDone (c := .always) rfl s rfl⟩
  all_goals simp [condHolds, bne, beq_eq_decide]

end Sys2Proof.Proofs

namespace Sys2Proof.Proofs

open Sys2Proof Sys2Proof.Machine Sys2Proof.Laws

/-! ### Bits that enter at the low end

ROL and the division steps shift a word left by one and let one bit enter: the library's `shiftConcat`. -/

theorem shiftLeft_or_ofBool {w : Nat} (x : BitVec w) (b : Bool) :
    (x <<< 1) ||| (BitVec.ofBool b).setWidth w = x.shiftConcat b := by
  ext i hi
  simp only [BitVec.getElem_or, BitVec.getElem_shiftLeft, BitVec.getElem_setWidth, BitVec.getElem_shiftConcat]
  cases i with
  | zero => simp
  | succ i => simp

theorem toNat_shiftConcat_word (x : Word) (b : Bool) : (x.shiftConcat b).toNat = x.toNat * 2 % 65536 + b.toNat := by
  have hb : b.toNat ≤ 1 := Bool.toNat_le b
  rw [BitVec.toNat_shiftConcat, Nat.shiftLeft_eq]
  omega

/-- A bit of a word as a number. -/
theorem toNat_getLsbD (w : Word) (k : Nat) : (w.getLsbD k).toNat = w.toNat / 2 ^ k % 2 := Nat.toNat_testBit w.toNat k

/-- The top bit of a word as a number. -/
theorem toNat_top (w : Word) : (w.getLsbD 15).toNat = w.toNat / 32768 := by
  have hw := w.isLt
  rw [toNat_getLsbD]
  omega

/-! ### ROL and ROR (R248 to R250) -/

/-- The 17-bit value that is rotated. -/
def carryWord (c : Bool) (v : Word) : BitVec 17 := BitVec.ofBool c ++ v

theorem getLsbD_carryWord (c : Bool) (v : Word) (i : Nat) :
    (carryWord c v).getLsbD i = if i < 16 then v.getLsbD i else decide (i = 16) && c := by
  rw [carryWord, BitVec.getLsbD_append, BitVec.getLsbD_ofBool]
  by_cases hi : i < 16
  · simp [hi]
  · have h0 : i - 16 = 0 ↔ i = 16 := by omega
    simp [hi, h0]

theorem carryWord_parts (c : Bool) (v : Word) :
    (carryWord c v).extractLsb' 0 16 = v ∧ (carryWord c v).getLsbD 16 = c :=
  ⟨BitVec.extractLsb'_append_eq_right, by rw [getLsbD_carryWord]; simp⟩

section Rotations

variable (x : BitVec 17) {n i : Nat}

theorem getLsbD_rotateLeft_of_lt (hn : n < 17) (hi : i < 17) :
    (x.rotateLeft n).getLsbD i = x.getLsbD (if i < n then 17 - n + i else i - n) := by
  rw [BitVec.getLsbD_rotateLeft, Nat.mod_eq_of_lt hn]
  by_cases h : i < n <;> simp [h, hi]

theorem getLsbD_rotateRight_of_lt (hn : n < 17) (hi : i < 17) :
    (x.rotateRight n).getLsbD i = x.getLsbD (if i < 17 - n then n + i else i - (17 - n)) := by
  rw [BitVec.getLsbD_rotateRight, Nat.mod_eq_of_lt hn]
  by_cases h : i < 17 - n <;> simp [h, hi]

theorem rotateLeft_one_rotateLeft (hn : n + 1 < 17) : (x.rotateLeft 1).rotateLeft n = x.rotateLeft (n + 1) := by
  apply BitVec.eq_of_getLsbD_eq
  intro i hi
  rw [getLsbD_rotateLeft_of_lt _ (by omega) hi, getLsbD_rotateLeft_of_lt x hn hi]
  by_cases h : i < n
  · rw [if_pos h, if_pos (by omega), getLsbD_rotateLeft_of_lt x (by decide) (by omega), if_neg (by omega)]
    congr 1
    omega
  · rw [if_neg h, getLsbD_rotateLeft_of_lt x (by decide) (by omega)]
    congr 1
    split <;> split <;> omega

theorem rotateRight_one_rotateRight (hn : n + 1 < 17) : (x.rotateRight 1).rotateRight n = x.rotateRight (n + 1) := by
  apply BitVec.eq_of_getLsbD_eq
  intro i hi
  rw [getLsbD_rotateRight_of_lt _ (by omega) hi, getLsbD_rotateRight_of_lt x hn hi]
  by_cases h : i < 17 - n
  · rw [if_pos h, getLsbD_rotateRight_of_lt x (by decide) (by omega)]
    congr 1
    split <;> split <;> omega
  · rw [if_neg h, if_neg (by omega), getLsbD_rotateRight_of_lt x (by decide) (by omega), if_pos (by omega)]
    congr 1
    omega

end Rotations

theorem carryWord_rotateLeft_one (c : Bool) (v : Word) :
    carryWord (v.getLsbD 15) (v.shiftConcat c) = (carryWord c v).rotateLeft 1 := by
  apply BitVec.eq_of_getLsbD_eq
  intro i hi
  rw [getLsbD_rotateLeft_of_lt _ (by decide) hi, getLsbD_carryWord, getLsbD_carryWord, BitVec.getLsbD_shiftConcat]
  cases i with
  | zero => simp
  | succ i =>
    by_cases h : i + 1 < 16
    · have hi16 : i < 16 := by omega
      simp [h, hi16]
    · obtain rfl : i = 15 := by omega
      simp

theorem carryWord_rotateRight_one (c : Bool) (v : Word) :
    carryWord (v.getLsbD 0) ((v >>> 1) ||| ((BitVec.ofBool c).setWidth 16 <<< 15)) = (carryWord c v).rotateRight 1 := by
  apply BitVec.eq_of_getLsbD_eq
  intro i hi
  rw [getLsbD_rotateRight_of_lt _ (by decide) hi, getLsbD_carryWord, getLsbD_carryWord, BitVec.getLsbD_or,
    BitVec.getLsbD_ushiftRight, BitVec.getLsbD_shiftLeft]
  by_cases h : i < 15
  · have h16 : i < 16 ∧ 1 + i < 16 ∧ i < 17 - 1 := by omega
    simp [h, h16]
  · obtain rfl | rfl : i = 15 ∨ i = 16 := by omega
    · simp
    · simp

theorem rolSteps_carryWord (n : Nat) (hn : n < 17) (v : Word) (c : Bool) :
    carryWord (rolSteps n v c).2 (rolSteps n v c).1 = (carryWord c v).rotateLeft n := by
  induction n generalizing v c with
  | zero =>
    apply BitVec.eq_of_getLsbD_eq
    intro i hi
    rw [getLsbD_rotateLeft_of_lt _ hn hi]
    rfl
  | succ n ih =>
    rw [← rotateLeft_one_rotateLeft _ hn, ← carryWord_rotateLeft_one, ← ih (by omega), ← shiftLeft_or_ofBool]
    rfl

theorem rorSteps_carryWord (n : Nat) (hn : n < 17) (v : Word) (c : Bool) :
    carryWord (rorSteps n v c).2 (rorSteps n v c).1 = (carryWord c v).rotateRight n := by
  induction n generalizing v c with
  | zero =>
    apply BitVec.eq_of_getLsbD_eq
    intro i hi
    rw [getLsbD_rotateRight_of_lt _ hn hi, if_pos (by omega)]
    simp
    rfl
  | succ n ih =>
    rw [← rotateRight_one_rotateRight _ hn, ← carryWord_rotateRight_one, ← ih (by omega)]
    rfl

theorem shiftCnt4_eq_mod (v : Word) : shiftCnt4 v = v.toNat % 16 := BitVec.extractLsb'_toNat 0 4 v

/-- A rotate writes Rd and C from the 17-bit value. -/
theorem rotateWrite_done {rd : Reg} {r : Word × Bool} {v : BitVec 17} {s : State} (h : carryWord r.2 r.1 = v) :
    (rotateWrite rd r s).reg rd = v.extractLsb' 0 16 ∧
      (rd ≠ .sr → (rotateWrite rd r s).status = { s.status with c := v.getLsbD 16 }) ∧
      RegsSameBut (.core rd) s (rotateWrite rd r s) ∧ (rd ≠ .pc → (rotateWrite rd r s).pc = s.pc) ∧
      MemSame s (rotateWrite rd r s) ∧ SysSame s (rotateWrite rd r s) := by
  obtain ⟨hlow, htop⟩ := carryWord_parts r.2 r.1
  rw [h] at hlow htop
  obtain ⟨hregs, hsr, hpc, hmem, hsys⟩ :=
    setReg_onlyWritten { s with status := { s.status with c := r.2 } } rd r.1
  refine ⟨(setReg_reg_same _ rd _).trans hlow.symm, fun hne => ?_, fun q hq hqs hqp => ?_, hpc, hmem, hsys⟩
  · rw [htop]
    exact hsr hne
  · exact (hregs q hq hqs hqp).trans (status_greg s _ q hqs)

/-- Settles O33: the steps of ROL and ROR are one rotation of the 17-bit value. -/
theorem rotatesThroughCarry : Obligations.RotatesThroughCarry := by
  intro rd rs s i v x n hi
  have hn : n < 17 := (Nat.mod_lt _ (by decide)).trans (by decide)
  have hcount : shiftCnt4 (s.reg rs) = n := shiftCnt4_eq_mod (s.reg rs)
  simp only [List.mem_cons, List.not_mem_nil, or_false, Prod.mk.injEq] at hi
  obtain ⟨rfl, rfl⟩ | ⟨rfl, rfl⟩ := hi
  · exact ⟨_, rfl, rotateWrite_done (hcount ▸ rolSteps_carryWord n hn (s.reg rd) s.status.c)⟩
  · exact ⟨_, rfl, rotateWrite_done (hcount ▸ rorSteps_carryWord n hn (s.reg rd) s.status.c)⟩

/-! ### ASROR, LSROR and LSLOR (R246) -/

section Windows

variable (w : Int) (v : Word) (n : Nat)

theorem ofInt_low : (BitVec.ofInt 32 w).extractLsb' 0 16 = BitVec.ofInt 16 w := by
  apply BitVec.eq_of_toNat_eq
  rw [BitVec.extractLsb'_toNat, BitVec.toNat_ofInt, BitVec.toNat_ofInt, Nat.shiftRight_zero]
  omega

theorem ofInt_high : (BitVec.ofInt 32 w).extractLsb' 16 16 = BitVec.ofInt 16 (w / 65536) := by
  apply BitVec.eq_of_toNat_eq
  rw [BitVec.extractLsb'_toNat, BitVec.toNat_ofInt, BitVec.toNat_ofInt, Nat.shiftRight_eq_div_pow]
  omega

theorem asrWindow_eq_ofInt : asrWindow v n = BitVec.ofInt 32 (v.toInt * 65536 / 2 ^ n) := rfl

theorem lsrWindow_eq_ofInt : lsrWindow v n = BitVec.ofInt 32 ((v.toNat : Int) * 65536 / 2 ^ n) := by
  have hcast : (v.toNat : Int) * 65536 / 2 ^ n = ((v.toNat * 2 ^ 16 / 2 ^ n : Nat) : Int) := by push_cast; rfl
  rw [hcast, BitVec.ofInt_natCast]
  rfl

theorem lslWindow_eq_ofInt : lslWindow v n = BitVec.ofInt 32 ((v.toNat : Int) * 2 ^ n % 4294967296) := by
  have hcast : (v.toNat : Int) * 2 ^ n % 4294967296 = ((v.toNat * 2 ^ n % 2 ^ 32 : Nat) : Int) := by push_cast; rfl
  rw [hcast, BitVec.ofInt_natCast]
  exact BitVec.eq_of_toNat_eq (by rw [lslWindow, BitVec.toNat_ofNat, BitVec.toNat_ofNat, Nat.mod_mod])

end Windows

/-- Only R3 and R4 are written. -/
def OnlyMrWritten (s t : State) : Prop :=
  (∀ q : GReg, q ≠ .core .r3 → q ≠ .core .r4 → t.greg q = s.greg q) ∧ t.status = s.status ∧ t.pc = s.pc ∧
    MemSame s t ∧ SysSame s t

/-- Two register writes, to R3 and R4. -/
theorem setReg_setReg_onlyMrWritten (s : State) {a b : Reg} (ha : a = .r3 ∨ a = .r4) (hb : b = .r3 ∨ b = .r4) (v w : Word) :
    OnlyMrWritten s ((s.setReg a v).setReg b w) := by
  have one (t : State) {r : Reg} (hr : r = .r3 ∨ r = .r4) (x : Word) :
      (∀ q : GReg, q ≠ .core .r3 → q ≠ .core .r4 → (t.setReg r x).greg q = t.greg q) ∧
        (t.setReg r x).status = t.status ∧ (t.setReg r x).pc = t.pc := by
    refine ⟨fun q h3 h4 => setGreg_greg_other t (.core r) q x ?_, setGreg_status t (.core r) x ?_,
      setGreg_pc t (.core r) x ?_⟩ <;> rcases hr with rfl | rfl
    · exact h3
    · exact h4
    all_goals decide
  obtain ⟨hregs, hstatus, hpc⟩ := one s ha v
  obtain ⟨hregs', hstatus', hpc'⟩ := one (s.setReg a v) hb w
  exact ⟨fun q h3 h4 => (hregs' q h3 h4).trans (hregs q h3 h4), hstatus'.trans hstatus, hpc'.trans hpc,
    memSame_trans (setGreg_memSame s (.core a) v) (setGreg_memSame _ (.core b) w),
    sysSame_trans (setGreg_sysSame s (.core a) v) (setGreg_sysSame _ (.core b) w)⟩

theorem orDown_regs (w : BitVec 32) (s : State) :
    (orDown w s).reg .r4 = w.extractLsb' 16 16 ∧ (orDown w s).reg .r3 = s.reg .r3 ||| w.extractLsb' 0 16 :=
  ⟨(setReg_reg_other _ _ _ _ (by decide)).trans (setReg_reg_same _ _ _), setReg_reg_same _ _ _⟩

theorem orUp_regs (w : BitVec 32) (s : State) :
    (orUp w s).reg .r3 = w.extractLsb' 0 16 ∧ (orUp w s).reg .r4 = s.reg .r4 ||| w.extractLsb' 16 16 :=
  ⟨(setReg_reg_other _ _ _ _ (by decide)).trans (setReg_reg_same _ _ _), setReg_reg_same _ _ _⟩

section OrShifts

variable (rs : Reg) (s : State)

theorem exec_asrOr16 : exec (.asrOr16 .r4 rs) s = .next (orDown (asrWindow (s.reg .r4) ((s.reg rs).toNat % 32)) s) := by
  rw [← shiftCnt5_eq_mod]
  rfl

theorem exec_lsrOr16 : exec (.lsrOr16 .r4 rs) s = .next (orDown (lsrWindow (s.reg .r4) ((s.reg rs).toNat % 32)) s) := by
  rw [← shiftCnt5_eq_mod]
  rfl

theorem exec_lslOr16 : exec (.lslOr16 .r3 rs) s = .next (orUp (lslWindow (s.reg .r3) ((s.reg rs).toNat % 32)) s) := by
  rw [← shiftCnt5_eq_mod]
  rfl

end OrShifts

/-- Settles O31: the halves of each window go where R246 puts them, and another Rd is refused. -/
theorem orShiftResults : Obligations.OrShiftResults := by
  intro rs rd s n down up rest
  have hdown (w : Int) : down w (orDown (BitVec.ofInt 32 w) s) ∧ rest (orDown (BitVec.ofInt 32 w) s) := by
    obtain ⟨hr4, hr3⟩ := orDown_regs (BitVec.ofInt 32 w) s
    rw [ofInt_high] at hr4
    rw [ofInt_low] at hr3
    exact ⟨⟨hr4, hr3⟩, setReg_setReg_onlyMrWritten s (.inr rfl) (.inl rfl) _ _⟩
  have hup (w : Int) : up w (orUp (BitVec.ofInt 32 w) s) ∧ rest (orUp (BitVec.ofInt 32 w) s) := by
    obtain ⟨hr3, hr4⟩ := orUp_regs (BitVec.ofInt 32 w) s
    rw [ofInt_high] at hr4
    rw [ofInt_low] at hr3
    exact ⟨⟨hr3, hr4⟩, setReg_setReg_onlyMrWritten s (.inl rfl) (.inr rfl) _ _⟩
  refine ⟨⟨_, exec_asrOr16 rs s, ?asr⟩, ⟨_, exec_lsrOr16 rs s, ?lsr⟩, ⟨_, exec_lslOr16 rs s, ?lsl⟩,
    fun h => ⟨if_neg h, if_neg h⟩, fun h => if_neg h⟩
  case asr => rw [asrWindow_eq_ofInt]; exact hdown _
  case lsr => rw [lsrWindow_eq_ofInt]; exact hdown _
  case lsl => rw [lslWindow_eq_ofInt]; exact hup _

/-! A shift and its OR form are one shift of MR: the shifts of `{R4, 0}` and `{0, R3}` meet in no bit. -/

section Halves

variable (v a b : Word) (w : BitVec 32) (n : Nat)

theorem toNat_append_zero : (a ++ 0#16 : BitVec 32).toNat = a.toNat * 2 ^ 16 := by
  rw [BitVec.toNat_append, BitVec.toNat_ofNat, Nat.zero_mod, Nat.or_zero, Nat.shiftLeft_eq]

theorem toNat_zero_append : (0#16 ++ b : BitVec 32).toNat = b.toNat := by
  rw [BitVec.toNat_append, BitVec.toNat_ofNat, Nat.zero_mod, Nat.zero_shiftLeft, Nat.zero_or]

theorem asrWindow_eq_sshiftRight : asrWindow v n = (v ++ 0#16).sshiftRight n := by
  rw [asrWindow, BitVec.sshiftRight, BitVec.toInt_append_zero, Int.shiftRight_eq_div_pow, Int.mul_comm]
  rfl

theorem lsrWindow_eq_ushiftRight : lsrWindow v n = (v ++ 0#16) >>> n := by
  apply BitVec.eq_of_toNat_eq
  have hv := v.isLt
  rw [lsrWindow, BitVec.toNat_ofNat, BitVec.toNat_ushiftRight, toNat_append_zero, Nat.shiftRight_eq_div_pow]
  exact Nat.mod_eq_of_lt ((Nat.div_le_self _ _).trans_lt (by omega))

theorem lslWindow_eq_shiftLeft : lslWindow v n = (0#16 ++ v) <<< n := by
  apply BitVec.eq_of_toNat_eq
  rw [lslWindow, BitVec.toNat_ofNat, BitVec.toNat_shiftLeft, toNat_zero_append, Nat.shiftLeft_eq]

/-- A pair of words is its two halves. -/
theorem append_eq_or : (a ++ b : BitVec 32) = (a ++ 0#16) ||| (0#16 ++ b) := by
  rw [BitVec.or_append, BitVec.or_zero, BitVec.zero_or]

theorem halves_append : w.extractLsb' 16 16 ++ w.extractLsb' 0 16 = w :=
  (BitVec.extractLsb'_append_extractLsb'_eq_extractLsb' rfl).trans BitVec.extractLsb'_eq_self

theorem zero_append_ushiftRight : (0#16 ++ b : BitVec 32) >>> n = 0#16 ++ (b >>> n) := by
  apply BitVec.eq_of_toNat_eq
  rw [BitVec.toNat_ushiftRight, toNat_zero_append, toNat_zero_append, BitVec.toNat_ushiftRight]

theorem append_zero_shiftLeft : (a ++ 0#16 : BitVec 32) <<< n = (a <<< n) ++ 0#16 := by
  apply BitVec.eq_of_toNat_eq
  rw [BitVec.toNat_shiftLeft, toNat_append_zero, toNat_append_zero, BitVec.toNat_shiftLeft, Nat.shiftLeft_eq, Nat.shiftLeft_eq]
  have hcomm : a.toNat * 2 ^ 16 * 2 ^ n = a.toNat * 2 ^ n * 2 ^ 16 := Nat.mul_right_comm _ _ _
  rw [hcomm]
  exact Nat.mul_mod_mul_right (2 ^ 16) _ (2 ^ 16)

theorem zero_append_sshiftRight : (0#16 ++ b : BitVec 32).sshiftRight n = 0#16 ++ (b >>> n) := by
  have hb := b.isLt
  have hmsb : (0#16 ++ b : BitVec 32).msb = false := by
    rw [BitVec.msb_eq_decide, toNat_zero_append]
    exact decide_eq_false (by omega)
  rw [BitVec.sshiftRight_eq_of_msb_false hmsb, zero_append_ushiftRight]

/-- The pair after a right OR form: the shifted low word has been ORed into the window. -/
theorem window_or_low : w.extractLsb' 16 16 ++ (b ||| w.extractLsb' 0 16) = w ||| (0#16 ++ b) := by
  conv_rhs => rw [← halves_append w]
  rw [BitVec.or_append, BitVec.or_zero, BitVec.or_comm b]

/-- The pair after the left OR form. -/
theorem window_or_high : (a ||| w.extractLsb' 16 16) ++ w.extractLsb' 0 16 = w ||| (a ++ 0#16) := by
  conv_rhs => rw [← halves_append w]
  rw [BitVec.or_append, BitVec.or_zero, BitVec.or_comm a]

end Halves

theorem orDown_mr (w : BitVec 32) (s : State) : (orDown w s).mr = w ||| (0#16 ++ s.reg .r3) := by
  obtain ⟨hr4, hr3⟩ := orDown_regs w s
  rw [State.mr, hr4, hr3, window_or_low]

theorem orUp_mr (w : BitVec 32) (s : State) : (orUp w s).mr = w ||| (s.reg .r4 ++ 0#16) := by
  obtain ⟨hr3, hr4⟩ := orUp_regs w s
  rw [State.mr, hr4, hr3, window_or_high]

theorem ofNat_div_eq_ushiftRight (v : Word) (n : Nat) : BitVec.ofNat 16 (v.toNat / 2 ^ n) = v >>> n :=
  BitVec.eq_of_toNat_eq ((toNat_ofNat_div_two_pow v n).trans (by rw [BitVec.toNat_ushiftRight, Nat.shiftRight_eq_div_pow]))

theorem ofNat_mul_eq_shiftLeft (v : Word) (n : Nat) : BitVec.ofNat 16 (v.toNat * 2 ^ n) = v <<< n :=
  BitVec.eq_of_toNat_eq (by rw [BitVec.toNat_ofNat, BitVec.toNat_shiftLeft, Nat.shiftLeft_eq])

/-- Settles O32: each pair shifts the two halves of MR apart and joins them. -/
theorem orShiftsMakeThirtyTwoBitShifts : Obligations.OrShiftsMakeThirtyTwoBitShifts := by
  intro rs s h3 h4 n i j v hrow
  have hmr : s.mr = (s.reg .r4 ++ 0#16) ||| (0#16 ++ s.reg .r3) := append_eq_or _ _
  have hlsr : exec (.lsr16 .r3 rs) s = .next (s.setReg .r3 (s.reg .r3 >>> n)) := by
    rw [← ofNat_div_eq_ushiftRight]
    exact exec_lsr16 .r3 rs s
  have hlsl : exec (.lsl16 .r4 rs) s = .next (s.setReg .r4 (s.reg .r4 <<< n)) := by
    rw [← ofNat_mul_eq_shiftLeft]
    exact exec_lsl16 .r4 rs s
  have hcount3 : ((s.setReg .r3 (s.reg .r3 >>> n)).reg rs).toNat % 32 = n := by rw [setReg_reg_other _ _ _ _ h3]
  have hcount4 : ((s.setReg .r4 (s.reg .r4 <<< n)).reg rs).toNat % 32 = n := by rw [setReg_reg_other _ _ _ _ h4]
  simp only [List.mem_cons, List.not_mem_nil, or_false, Prod.mk.injEq] at hrow
  obtain ⟨rfl, rfl, rfl⟩ | ⟨rfl, rfl, rfl⟩ | ⟨rfl, rfl, rfl⟩ := hrow
  · refine ⟨_, _, hlsr, exec_asrOr16 rs _, ?_⟩
    rw [orDown_mr, hcount3, setReg_reg_same, setReg_reg_other _ _ _ _ (by decide), asrWindow_eq_sshiftRight, hmr,
      BitVec.sshiftRight_or_distrib, zero_append_sshiftRight]
  · refine ⟨_, _, hlsr, exec_lsrOr16 rs _, ?_⟩
    rw [orDown_mr, hcount3, setReg_reg_same, setReg_reg_other _ _ _ _ (by decide), lsrWindow_eq_ushiftRight, hmr,
      BitVec.ushiftRight_or_distrib, zero_append_ushiftRight]
  · refine ⟨_, _, hlsl, exec_lslOr16 rs _, ?_⟩
    rw [orUp_mr, hcount4, setReg_reg_same, setReg_reg_other _ _ _ _ (by decide), lslWindow_eq_shiftLeft, hmr,
      BitVec.shiftLeft_or_distrib, append_zero_shiftLeft, BitVec.or_comm]

end Sys2Proof.Proofs

namespace Sys2Proof.Proofs

open Sys2Proof Sys2Proof.Machine Sys2Proof.Laws

/-! ### MUL (R260, R262) -/

theorem setMr_onlyMrWritten (s : State) (v : BitVec 32) : OnlyMrWritten s (s.setMr v) :=
  setReg_setReg_onlyMrWritten s (.inr rfl) (.inl rfl) _ _

/-- The two halves of a written MR. -/
theorem setMr_regs (s : State) (v : BitVec 32) :
    (s.setMr v).reg .r4 = v.extractLsb' 16 16 ∧ (s.setMr v).reg .r3 = v.extractLsb' 0 16 :=
  ⟨(setReg_reg_other _ _ _ _ (by decide)).trans (setReg_reg_same _ _ _), setReg_reg_same _ _ _⟩

/-- The registers that MUL may have in every version (R260). -/
def mulOperands : List Reg := [.r1, .r2, .r3, .r4, .bp]

theorem mulRegAllowed_iff (r : Reg) : mulRegAllowed r = true ↔ r ∈ mulOperands := by
  cases r <;> decide

/-- MUL runs unless a version without the wide operands meets another register (R260, D26). -/
theorem mulRegs_runs {k : MulKind} {rd rs : Reg} {s : State}
    (h : s.cfg.ver.is12Plus = true ∨ (rd ∈ mulOperands ∧ rs ∈ mulOperands)) :
    mulRegs k rd rs s = .next (s.setMr (BitVec.ofInt 32 (mulProduct s k (s.reg rd) (s.reg rs)))).freeShiftBuf := by
  refine if_neg fun hbad => ?_
  rw [Bool.and_eq_true, Bool.not_eq_true', Bool.not_eq_true', Bool.and_eq_false_iff] at hbad
  obtain ⟨hver, hregs⟩ := hbad
  rcases h with hplus | ⟨hd, hs⟩
  · exact absurd (hplus.symm.trans hver) (by decide)
  · rw [(mulRegAllowed_iff rd).2 hd, (mulRegAllowed_iff rs).2 hs] at hregs
    exact absurd hregs (by decide)

theorem mulRegs_refused {k : MulKind} {rd rs : Reg} {s : State} (hver : s.cfg.ver.is12Plus = false)
    (h : ¬ (rd ∈ mulOperands ∧ rs ∈ mulOperands)) : mulRegs k rd rs s = .refused .mulOperand := by
  refine if_pos ?_
  rw [← mulRegAllowed_iff, ← mulRegAllowed_iff, ← Bool.and_eq_true, Bool.not_eq_true] at h
  rw [hver, h]
  rfl

/-- A shift buffer nobody knows keeps every register. -/
theorem freeShiftBuf_greg (s : State) (q : GReg) : s.freeShiftBuf.greg q = s.greg q := by
  cases q with
  | core r => cases r <;> rfl
  | ext x => cases x <;> rfl

theorem freeShiftBuf_sb (s : State) : ∃ v : BitVec 4, s.freeShiftBuf.sb = (withShiftBuf s v).sb :=
  ⟨Config.freeShiftBuffer s.freeIdx, by rw [← setShiftBuf_eq_withShiftBuf]; rfl⟩

theorem mul_done (k : MulKind) (rd rs : Reg) (s : State)
    (h : s.cfg.ver.is12Plus = true ∨ (rd ∈ mulOperands ∧ rs ∈ mulOperands)) : MulDone (mulRegs k rd rs s) k rd rs s := by
  have hproduct := mulProduct_eq_specProduct k (s.reg rd) (s.reg rs) (atLevel_zero rd rs s)
  obtain ⟨hregs, hstatus, hpc, hmem, ⟨hcfg, hpins, hflags, hmds, hsvc, hdmack, hhold, -, hother⟩, hss, hsb⟩ :=
    setMr_onlyMrWritten s (BitVec.ofInt 32 (specProduct k (FractionOn s) (s.reg rd) (s.reg rs)))
  obtain ⟨v, hv⟩ := freeShiftBuf_sb (s.setMr (BitVec.ofInt 32 (specProduct k (FractionOn s) (s.reg rd) (s.reg rs))))
  rw [mulRegs_runs h, hproduct]
  exact ⟨_, rfl, setMr_mr s _, fun q h3 h4 => (freeShiftBuf_greg _ q).trans (hregs q h3 h4), hstatus, hpc, hmem, hcfg,
    hpins, hflags, hss, hmds, hsvc, hdmack, hhold, hother, v, hv.trans (withShiftBuf_sb_congr hsvc hsb v)⟩

/-- Settles O34: the three forms are the shared multiplication. -/
theorem mulPutsProductInMr : Obligations.MulPutsProductInMr := by
  intro rd rs s allowed
  exact ⟨fun h => ⟨mul_done .uu rd rs s h, mul_done .us rd rs s h, mul_done .ss rd rs s h⟩,
    fun hver h => ⟨mulRegs_refused hver h, mulRegs_refused hver h⟩⟩

/-! ### DIVS and DIVQ (R268 to R270) -/

/-- What a division step leaves, whatever it computes: AQ, R3 and R4 alone change. -/
def OnlyDivided (s t : State) : Prop :=
  (∀ q : GReg, q ≠ .core .r3 → q ≠ .core .r4 → t.greg q = s.greg q) ∧ t.status = s.status ∧ t.pc = s.pc ∧
    MemSame s t ∧ t.sb = s.sb ∧ t.ss = s.ss ∧ t.mds = s.mds ∧ t.svc = s.svc ∧ t.otherBank = s.otherBank

theorem setAq_greg (s : State) (b : Bool) (q : GReg) : (s.setAq b).greg q = s.greg q := by
  cases q with
  | core r => cases r <;> rfl
  | ext x => cases x <;> rfl

theorem setAq_setMr_onlyDivided (s : State) (aq : Bool) (v : BitVec 32) :
    ((s.setAq aq).setMr v).flags = { s.flags with aq := aq } ∧ OnlyDivided s ((s.setAq aq).setMr v) := by
  obtain ⟨hregs, hstatus, hpc, hmem, ⟨-, -, hflags, hmds, hsvc, -, -, -, hother⟩, hss, hsb⟩ :=
    setMr_onlyMrWritten (s.setAq aq) v
  exact ⟨hflags, fun q h3 h4 => (hregs q h3 h4).trans (setAq_greg s aq q), hstatus, hpc, hmem, hsb, hss, hmds, hsvc,
    hother⟩

/-- AQ of DIVS (R269). -/
def divsAq (s : State) : Bool := xor ((s.reg .r4).getLsbD 15) ((s.reg .r2).getLsbD 15)

/-- The sum or difference of DIVQ (R270). -/
def divqSum (s : State) : Word := if s.flags.aq then s.reg .r4 + s.reg .r2 else s.reg .r4 - s.reg .r2

/-- AQ of DIVQ (R270). -/
def divqAq (s : State) : Bool := xor ((divqSum s).getLsbD 15) ((s.reg .r2).getLsbD 15)

theorem msb_eq_top (w : Word) : w.msb = w.getLsbD 15 := BitVec.msb_eq_getLsbD_last w

theorem divsStep_eq (s : State) : divsStep s = (s.setAq (divsAq s)).setMr (s.mr.shiftConcat (divsAq s)) := by
  unfold divsStep divsAq
  rw [← shiftLeft_or_ofBool, msb_eq_top, msb_eq_top]

theorem divqStep_eq (s : State) : divqStep s = (s.setAq (divqAq s)).setMr
    ((divqSum s).shiftConcat ((s.reg .r3).getLsbD 15) ++ (s.reg .r3).shiftConcat (!divqAq s)) := by
  unfold divqStep divqAq
  rw [← shiftLeft_or_ofBool, ← shiftLeft_or_ofBool, ← msb_eq_top, ← msb_eq_top, ← msb_eq_top]
  rfl

theorem mr_toNat (s : State) : s.mr.toNat = (s.reg .r4).toNat * 65536 + (s.reg .r3).toNat := by
  rw [State.mr, BitVec.toNat_append, ← Nat.shiftLeft_add_eq_or_of_lt (s.reg .r3).isLt, Nat.shiftLeft_eq]

/-- The pair after DIVS: MR shifted left by one, AQ entering. -/
theorem divsStep_regs (s : State) :
    ((divsStep s).reg .r4).toNat = ((s.reg .r4).toNat * 2 + ((s.reg .r3).getLsbD 15).toNat) % 65536 ∧
      ((divsStep s).reg .r3).toNat = (s.reg .r3).toNat * 2 % 65536 + (divsAq s).toNat := by
  have haq : (divsAq s).toNat ≤ 1 := Bool.toNat_le _
  have h4 := (s.reg .r4).isLt
  have h3 := (s.reg .r3).isLt
  have hmr := mr_toNat s
  obtain ⟨hr4, hr3⟩ := setMr_regs (s.setAq (divsAq s)) (s.mr.shiftConcat (divsAq s))
  rw [divsStep_eq, hr4, hr3, BitVec.extractLsb'_toNat, BitVec.extractLsb'_toNat, BitVec.toNat_shiftConcat,
    Nat.shiftLeft_eq, Nat.shiftRight_zero, Nat.shiftRight_eq_div_pow, toNat_top, hmr]
  omega

/-- The pair after DIVQ. -/
theorem divqStep_regs (s : State) :
    ((divqStep s).reg .r4).toNat = (divqSum s).toNat * 2 % 65536 + ((s.reg .r3).getLsbD 15).toNat ∧
      ((divqStep s).reg .r3).toNat = (s.reg .r3).toNat * 2 % 65536 + (!divqAq s).toNat := by
  obtain ⟨hr4, hr3⟩ := setMr_regs (s.setAq (divqAq s))
    ((divqSum s).shiftConcat ((s.reg .r3).getLsbD 15) ++ (s.reg .r3).shiftConcat (!divqAq s))
  rw [divqStep_eq, hr4, hr3, BitVec.extractLsb'_append_eq_left, BitVec.extractLsb'_append_eq_right,
    toNat_shiftConcat_word, toNat_shiftConcat_word]
  exact ⟨rfl, rfl⟩

theorem divsStep_onlyDivided (s : State) :
    (divsStep s).flags = { s.flags with aq := divsAq s } ∧ OnlyDivided s (divsStep s) := by
  rw [divsStep_eq]
  exact setAq_setMr_onlyDivided s _ _

theorem divqStep_onlyDivided (s : State) :
    (divqStep s).flags = { s.flags with aq := divqAq s } ∧ OnlyDivided s (divqStep s) := by
  rw [divqStep_eq]
  exact setAq_setMr_onlyDivided s _ _

/-- Settles O38: each step writes AQ and the pair. -/
theorem divisionSteps : Obligations.DivisionSteps := by
  intro s b top aq1 r aq2
  obtain ⟨hs4, hs3⟩ := divsStep_regs s
  obtain ⟨hsFlags, hsRest⟩ := divsStep_onlyDivided s
  obtain ⟨hq4, hq3⟩ := divqStep_regs s
  obtain ⟨hqFlags, hqRest⟩ := divqStep_onlyDivided s
  exact ⟨⟨_, rfl, hsFlags, hs4, hs3, hsRest⟩, ⟨_, rfl, hqFlags, hq4, hq3, hqRest⟩⟩

/-! ### DIVUU (R274)

Between two steps the high word is the remainder so far, less twice the divisor where AQ says that the step before took
one divisor too many; the low word holds the bits of the dividend that are still to come, above the bits of the quotient
that are already there. -/

/-- After as many steps as the quotient has bits: `2 * dividend` is `e` and the bits `m` still to come, `e` is `2 * d`
times the quotient `q` so far and the remainder `x`. With `high` the weight of the bits to come and `low` that of the
quotient, `high * low = 65536`. -/
structure Dividing (dividend d high low e m q x : Nat) (u : State) : Prop where
  split : 2 * dividend = e * high + m
  rest : m < high
  quotient : e = 2 * (d * q) + x
  remainder : x < 2 * d
  fits : q < low
  lowWord : (u.reg .r3).toNat = m * low + q
  highWord : ((u.reg .r4).toNat : Int) = ((x : Int) - if u.flags.aq then 2 * d else 0) % 65536
  divisor : (u.reg .r2).toNat = d

theorem top_eq_decide (w : Word) : w.getLsbD 15 = decide (32768 ≤ w.toNat) :=
  (msb_eq_top w).symm.trans (BitVec.msb_eq_decide w)

section DivisionStep

variable {dividend d high low e m q x : Nat} {u : State}

/-- Whether the step adds or subtracts, it takes one divisor from the remainder. -/
theorem Dividing.sum (h : Dividing dividend d high low e m q x u) :
    ((divqSum u).toNat : Int) = ((x : Int) - d) % 65536 := by
  have hhigh := h.highWord
  have hdivisor := h.divisor
  have hr4 := (u.reg .r4).isLt
  have hr2 := (u.reg .r2).isLt
  unfold divqSum
  cases haq : u.flags.aq with
  | false =>
    rw [haq] at hhigh
    simp only [Bool.false_eq_true, if_false, BitVec.toNat_sub] at hhigh ⊢
    omega
  | true =>
    rw [haq] at hhigh
    simp only [if_true, BitVec.toNat_add] at hhigh ⊢
    omega

/-- AQ says whether that divisor was one too many. -/
theorem Dividing.aq (hd : d ≤ 0x7FFF) (h : Dividing dividend d high low e m q x u) : divqAq u = decide (x < d) := by
  have hsum := h.sum
  have hx := h.remainder
  have hr2 : (u.reg .r2).getLsbD 15 = false := by
    rw [top_eq_decide, h.divisor]
    exact decide_eq_false (by omega)
  rw [divqAq, hr2, Bool.xor_false, top_eq_decide]
  exact decide_eq_decide.2 (by omega)

/-- The next bit of the dividend is the top bit of the low word. -/
theorem Dividing.nextBit (hweights : high * low = 32768) (h : Dividing dividend d (2 * high) low e m q x u) :
    ∃ b m' : Nat, b ≤ 1 ∧ m = b * high + m' ∧ m' < high ∧ (u.reg .r3).toNat = b * 32768 + (m' * low + q) ∧
      m' * low + q < 32768 := by
  have hrest := h.rest
  have hfits := h.fits
  have hlow := h.lowWord
  obtain ⟨b, m', hb, hm, hm'⟩ : ∃ b m' : Nat, b ≤ 1 ∧ m = b * high + m' ∧ m' < high := by
    by_cases hlt : m < high
    · exact ⟨0, m, by omega, by omega, hlt⟩
    · exact ⟨1, m - high, by omega, by omega, by omega⟩
  have hbound : (m' + 1) * low ≤ 32768 := hweights ▸ Nat.mul_le_mul_right low hm'
  have hsplit : m * low = b * 32768 + m' * low := by rw [hm, ← hweights]; ring
  rw [Nat.succ_mul] at hbound
  exact ⟨b, m', hb, hm, hm', by omega, by omega⟩

/-- One step takes the next bit of the dividend and finds the next bit of the quotient. -/
theorem Dividing.step (hd : d ≤ 0x7FFF) (hweights : high * low = 32768)
    (h : Dividing dividend d (2 * high) low e m q x u) :
    ∃ e' m' q' x' : Nat, Dividing dividend d high (2 * low) e' m' q' x' (divqStep u) := by
  obtain ⟨b, m', hb, hm, hm', hlow, hbound⟩ := h.nextBit hweights
  have hsum := h.sum
  have haq := h.aq hd
  have hx := h.remainder
  have hfits := h.fits
  have hquotient := h.quotient
  have hr3 := (u.reg .r3).isLt
  obtain ⟨hr4', hr3'⟩ := divqStep_regs u
  obtain ⟨hflags, hregs, -⟩ := divqStep_onlyDivided u
  have hr2 : ((divqStep u).reg .r2).toNat = d :=
    (congrArg BitVec.toNat (hregs (.core .r2) (by decide) (by decide))).trans h.divisor
  have hsplit : 2 * dividend = (2 * e + b) * high + m' := by rw [h.split, hm]; ring
  have hlow2 : m' * (2 * low) = 2 * (m' * low) := by ring
  rw [toNat_top, hlow] at hr4'
  rw [hlow, haq] at hr3'
  by_cases hlt : x < d
  · have hdq : d * (2 * q) = 2 * (d * q) := by ring
    rw [decide_eq_true hlt] at hr3'
    refine ⟨2 * e + b, m', 2 * q, 2 * x + b, hsplit, hm', by omega, by omega, by omega, ?_, ?_, hr2⟩
    · rw [hr3', hlow2]
      exact (by omega : (b * 32768 + (m' * low + q)) * 2 % 65536 + 0 = 2 * (m' * low) + 2 * q)
    · rw [hflags, haq, decide_eq_true hlt, if_pos rfl]
      omega
  · have hdq : d * (2 * q + 1) = 2 * (d * q) + d := by ring
    rw [decide_eq_false hlt] at hr3'
    refine ⟨2 * e + b, m', 2 * q + 1, 2 * x + b - 2 * d, hsplit, hm', by omega, by omega, by omega, ?_, ?_, hr2⟩
    · rw [hr3', hlow2]
      exact (by omega : (b * 32768 + (m' * low + q)) * 2 % 65536 + 1 = 2 * (m' * low) + (2 * q + 1))
    · rw [hflags, haq, decide_eq_false hlt, if_neg Bool.false_ne_true]
      omega

end DivisionStep

/-- The steps that are left find the quotient. -/
theorem divqSteps_quotient {dividend d : Nat} (hd : d ≤ 0x7FFF) (n k : Nat) {u : State}
    (hk : n + k = 16) {e m q x : Nat} (h : Dividing dividend d (2 ^ n) (2 ^ k) e m q x u) :
    ((divqSteps n u).reg .r3).toNat = dividend / d := by
  induction n generalizing k u e m q x with
  | zero =>
    obtain ⟨hsplit, hrest, hquotient, hx, -, hlow, -, -⟩ := h
    rw [pow_zero] at hrest hsplit
    obtain rfl : m = 0 := by omega
    have hq : dividend / d = q := by
      refine Nat.div_eq_of_lt_le ?_ ?_
      · rw [Nat.mul_comm]; omega
      · rw [Nat.mul_comm, Nat.mul_succ]; omega
    rw [hq]
    exact hlow.trans (by omega)
  | succ n ih =>
    have hweights : 2 ^ n * 2 ^ k = 32768 := by
      rw [← pow_add, (by omega : n + k = 15)]
      rfl
    rw [pow_succ'] at h
    obtain ⟨e', m', q', x', hnext⟩ := h.step hd hweights
    rw [← pow_succ'] at hnext
    exact ih (k + 1) (by omega) hnext

/-- The division starts with no bit of the quotient and the high word as the remainder. -/
theorem dividing_start {dividend : Nat} {s : State} (hmr : s.mr.toNat = 2 * dividend)
    (hfits : dividend < (s.reg .r2).toNat * 65536) : Dividing dividend (s.reg .r2).toNat (2 ^ 16) (2 ^ 0)
      (s.reg .r4).toNat (s.reg .r3).toNat 0 (s.reg .r4).toNat (s.setAq false) := by
  have hparts := mr_toNat s
  have hr3 := (s.reg .r3).isLt
  have hr4 := (s.reg .r4).isLt
  have hreg (r : Reg) : (s.setAq false).reg r = s.reg r := setAq_greg s false (.core r)
  refine ⟨by omega, by omega, by omega, by omega, by decide, ?_, ?_, congrArg BitVec.toNat (hreg .r2)⟩
  · rw [hreg]; omega
  · rw [hreg]
    exact (by omega : ((s.reg .r4).toNat : Int) = (((s.reg .r4).toNat : Int) - 0) % 65536)

theorem divqSteps_succ (n : Nat) (s : State) : divqSteps (n + 1) s = divqStep (divqSteps n s) := by
  induction n generalizing s with
  | zero => rfl
  | succ n ih => exact ih (divqStep s)

/-- Settles O39: the runs are the steps by definition, and the steps divide. -/
theorem divuuDivides : Obligations.DivuuDivides := by
  intro s
  have hstep (t : State) (k : Nat) : exec .divq (divqSteps k t) = .next (divqSteps (k + 1) t) :=
    congrArg Host.Outcome.next (divqSteps_succ k t).symm
  refine ⟨⟨fun k => divqSteps k (s.setAq false), rfl, fun k _ => hstep _ k, rfl, fun dividend hmr _ hd hfits =>
      divqSteps_quotient hd 16 0 rfl (dividing_start hmr hfits)⟩,
    ⟨fun k => divqSteps k (divsStep s), rfl, fun k _ => hstep _ k, rfl⟩⟩

end Sys2Proof.Proofs

namespace Sys2Proof.Proofs

open Sys2Proof Sys2Proof.Machine Sys2Proof.Laws

/-! ### The words of a stack after its pointer has moved -/

section Stack

variable {s t u : State} {g : GReg} {m n i : Nat}

/-- Above a pointer that has moved down lie the words it has passed. -/
theorem stackUp_of_downBy (hcfg : t.cfg = s.cfg) (h : StackDownBy g n s t) (hi : i ≤ n) :
    stackUp t g i = stackDown s g (n - i) := by
  obtain ⟨hpointer, hss⟩ := h
  unfold stackUp
  rw [hpointer, hss, hcfg]
  unfold stackDown
  split
  · rw [mkAddr_parts]
    apply BitVec.eq_of_toNat_eq
    simp only [BitVec.toNat_add, BitVec.toNat_sub, BitVec.toNat_ofNat]
    omega
  · rw [offsetOf_mkAddr]
    congr 1
    apply BitVec.eq_of_toNat_eq
    simp only [BitVec.toNat_add, BitVec.toNat_sub, BitVec.toNat_ofNat]
    omega

/-- Above a pointer that has moved up lie the words further up. -/
theorem stackUp_of_upBy (hcfg : t.cfg = s.cfg) (h : StackUpBy g m s t) (k : Nat) :
    stackUp t g k = stackUp s g (m + k) := by
  obtain ⟨hpointer, hss⟩ := h
  unfold stackUp
  rw [hpointer, hss, hcfg]
  unfold stackUp
  split
  · rw [mkAddr_parts, BitVec.ofNat_add, BitVec.add_assoc]
  · rw [offsetOf_mkAddr, BitVec.ofNat_add, BitVec.add_assoc]

/-- A pointer that moves up by as much as it moved down is where it was, and SS with it. -/
theorem pointer_of_down_up (hcfg : t.cfg = s.cfg) (hdown : StackDownBy g n s t) (hup : StackUpBy g n t u) :
    u.greg g = s.greg g ∧ u.ss = s.ss := by
  have htop : stackUp t g n = mkAddr s.stackPage (s.greg g) := by
    rw [stackUp_of_downBy hcfg hdown le_rfl, Nat.sub_self, ← stackAddr_eq_down]
    rfl
  obtain ⟨hpointer, hss⟩ := hup
  obtain ⟨-, hssDown⟩ := hdown
  rw [htop] at hpointer hss
  refine ⟨hpointer.trans (offsetOf_mkAddr _ _), hss.trans ?_⟩
  rw [hcfg, pageOf_mkAddr, hssDown, State.stackPage]
  split <;> rfl

end Stack

/-! ### The registers as a whole -/

/-- The general registers of both banks are those that can be named and those of the bank not in use. -/
theorem regs_eq_but_sp {s t : State} (hbank : t.bank = s.bank) (hregs : RegsSameBut (.core .sp) s t)
    (hother : t.otherBank = s.otherBank) : t.regs = { s.regs with sp := t.regs.sp } := by
  have core (r : Reg) (hsp : r ≠ .sp) (hsr : r ≠ .sr) (hpc : r ≠ .pc) : t.reg r = s.reg r :=
    hregs (.core r) (core_ne_core hsp) (core_ne_core hsr) (core_ne_core hpc)
  have ext (x : XReg) : t.xreg x = s.xreg x :=
    hregs (.ext x) GReg.noConfusion GReg.noConfusion GReg.noConfusion
  have h1 := core .r1 (by decide) (by decide) (by decide)
  have h2 := core .r2 (by decide) (by decide) (by decide)
  have h3 := core .r3 (by decide) (by decide) (by decide)
  have h4 := core .r4 (by decide) (by decide) (by decide)
  have hbp := core .bp (by decide) (by decide) (by decide)
  have h8 := ext .r8
  have h9 := ext .r9
  have h10 := ext .r10
  have h11 := ext .r11
  have h12 := ext .r12
  have h13 := ext .r13
  have h14 := ext .r14
  have h15 := ext .r15
  simp only [State.reg, State.xreg, hbank] at h1 h2 h3 h4 hbp h8 h9 h10 h11 h12 h13 h14 h15
  simp only [State.otherBank, hbank] at hother
  clear core ext hregs
  generalize t.regs = a at *
  generalize s.regs = b at *
  cases a
  cases b
  cases hb : s.bank <;> simp_all

theorem regs_eq_of_greg {s t : State} (hbank : t.bank = s.bank) (hregs : RegsSame s t)
    (hother : t.otherBank = s.otherBank) : t.regs = s.regs := by
  have hsp : t.regs.sp = s.regs.sp := hregs (.core .sp) (by decide) (by decide)
  rw [regs_eq_but_sp hbank (fun q _ => hregs q) hother, hsp]

/-- The fields of SR read back from its word (R23). -/
theorem status_ofWord_word (x : Status) : Status.ofWord x.word = x := by
  obtain ⟨ds, n, z, sg, c, cs⟩ := x
  have hds : (Status.word ⟨ds, n, z, sg, c, cs⟩).extractLsb' 10 6 = ds := by
    rw [Status.word]
    simp only [BitVec.extractLsb'_append_eq_of_le (show 6 ≤ 10 by decide),
      BitVec.extractLsb'_append_eq_of_le (show 1 ≤ 4 by decide), BitVec.extractLsb'_append_eq_of_le (show 1 ≤ 3 by decide),
      BitVec.extractLsb'_append_eq_of_le (show 1 ≤ 2 by decide), BitVec.extractLsb'_append_eq_of_le (show 1 ≤ 1 by decide)]
    exact BitVec.extractLsb'_eq_self
  have hcs : (Status.word ⟨ds, n, z, sg, c, cs⟩).extractLsb' 0 6 = cs := BitVec.extractLsb'_append_eq_right
  simp only [Status.ofWord, hds, hcs, Status.mk.injEq, true_and, and_true]
  simp only [Status.word, BitVec.getLsbD_append, BitVec.getLsbD_ofBool]
  simp

/-- SR's word names its fields, in [1.0] and [1.1] too. -/
theorem status_eq_of_srWord {s t : State} (hcfg : t.cfg = s.cfg) (h : t.srWord = s.srWord) : t.status = s.status := by
  have hsame : t.status.word = s.status.word := by
    unfold State.srWord srWordOf at h
    rw [hcfg] at h
    split at h
    · exact (Config.sr1011 s.cfg.ver).injective h
    · exact h
  rw [← status_ofWord_word t.status, hsame, status_ofWord_word]

theorem bank_congr {s t : State} (hcfg : t.cfg = s.cfg) (hflags : t.flags.bnk = s.flags.bnk) : t.bank = s.bank := by
  unfold State.bank
  rw [hcfg, hflags]

/-! ### The registers of a POP (R173, R418) -/

theorem num_ofNum (n : BitVec 3) : (Reg.ofNum n).num = n := by
  revert n
  decide

theorem xnum_ofNum (n : BitVec 3) : (XReg.ofNum n).num = n := by
  revert n
  decide

theorem ofNum_ofNat_eq_iff {lo : Nat} (hlo : lo < 8) (r : Reg) :
    Reg.ofNum (BitVec.ofNat 3 lo) = r ↔ r.num.toNat = lo := by
  have hnum : (BitVec.ofNat 3 lo).toNat = lo := (BitVec.toNat_ofNat lo 3).trans (Nat.mod_eq_of_lt hlo)
  refine ⟨fun h => by rw [← h, num_ofNum, hnum], fun h => ?_⟩
  rw [BitVec.eq_of_toNat_eq (hnum.trans h.symm), ofNum_num]

theorem xofNum_ofNat_eq_iff {lo : Nat} (hlo : lo < 8) (x : XReg) :
    XReg.ofNum (BitVec.ofNat 3 lo) = x ↔ x.num.toNat = lo := by
  have hnum : (BitVec.ofNat 3 lo).toNat = lo := (BitVec.toNat_ofNat lo 3).trans (Nat.mod_eq_of_lt hlo)
  refine ⟨fun h => by rw [← h, xnum_ofNum, hnum], fun h => ?_⟩
  rw [BitVec.eq_of_toNat_eq (hnum.trans h.symm), xofNum_num]

/-- A range of core registers holds those with its numbers. -/
theorem core_mem_coreRange_iff {lo n : Nat} (h : lo + n ≤ 8) (r : Reg) :
    GReg.core r ∈ coreRange lo n ↔ lo ≤ r.num.toNat ∧ r.num.toNat < lo + n := by
  induction n generalizing lo with
  | zero =>
    rw [coreRange]
    simp
  | succ n ih =>
    rw [coreRange, List.mem_cons, ih (by omega), eq_comm, GReg.core.injEq, ofNum_ofNat_eq_iff (by omega)]
    omega

theorem ext_mem_extRange_iff {lo n : Nat} (h : lo + n ≤ 8) (x : XReg) :
    GReg.ext x ∈ extRange lo n ↔ lo ≤ x.num.toNat ∧ x.num.toNat < lo + n := by
  induction n generalizing lo with
  | zero =>
    rw [extRange]
    simp
  | succ n ih =>
    rw [extRange, List.mem_cons, ih (by omega), eq_comm, GReg.ext.injEq, xofNum_ofNat_eq_iff (by omega)]
    omega

theorem nodup_coreRange {lo n : Nat} (h : lo + n ≤ 8) : (coreRange lo n).Nodup := by
  induction n generalizing lo with
  | zero => exact List.nodup_nil
  | succ n ih =>
    refine List.nodup_cons.2 ⟨fun hmem => ?_, ih (by omega)⟩
    have hnum := (ofNum_ofNat_eq_iff (by omega) _).1 (rfl : Reg.ofNum (BitVec.ofNat 3 lo) = _)
    have hrange := (core_mem_coreRange_iff (by omega) _).1 hmem
    omega

theorem nodup_extRange {lo n : Nat} (h : lo + n ≤ 8) : (extRange lo n).Nodup := by
  induction n generalizing lo with
  | zero => exact List.nodup_nil
  | succ n ih =>
    refine List.nodup_cons.2 ⟨fun hmem => ?_, ih (by omega)⟩
    have hnum := (xofNum_ofNat_eq_iff (by omega) _).1 (rfl : XReg.ofNum (BitVec.ofNat 3 lo) = _)
    have hrange := (ext_mem_extRange_iff (by omega) _).1 hmem
    omega

theorem core_notMem_extRange (lo n : Nat) (r : Reg) : GReg.core r ∉ extRange lo n := by
  induction n generalizing lo with
  | zero => exact List.not_mem_nil
  | succ n ih =>
    rw [extRange, List.mem_cons, not_or]
    exact ⟨GReg.noConfusion, ih (lo + 1)⟩

/-! ### What a POP of a list leaves (R173, R418) -/

/-- The effect of a POP from what the pops of its list leave, where SR is loaded as it reads. -/
theorem popEffect_of_popped {g : GReg} {l : List GReg} {n : Nat} {q : Nat → GReg} {s t : State} (h : PoppedList g l s t)
    (hlen : l.length = n) (hq : ∀ i : Nat, (h : i < l.length) → l[i] = q (i + 1))
    (hsr : ∀ i : Nat, i < n → q (i + 1) = .core .sr → s.cfg.ver.is12Plus = false → Steady s (stackUp s g (i + 1)) →
      t.srWord = s.readWord (stackUp s g (i + 1))) : PopEffect g n q s t := by
  subst hlen
  obtain ⟨hword, hup, hregs, -, hpc, hcore, hsb, hmem, -⟩ := h
  have notMem {r : GReg} (hr : ∀ i : Nat, 1 ≤ i → i ≤ l.length → r ≠ q i) : r ∉ l :=
    notMem_of_getElem_ne hq fun i hi => hr (i + 1) (by omega) hi
  refine ⟨fun i h1 hi steady => ?_, hup, fun r hr hne hrs _ => hregs r hr (notMem hne) hrs,
    fun hg hne => hpc hg (notMem fun i h1 hi => (hne i h1 hi).symm), hmem, hcore, hsb⟩
  obtain ⟨i, rfl⟩ := Nat.exists_eq_add_of_le' h1
  rw [← hq i hi]
  by_cases hspecial : l[i] ≠ .core .sr ∨ s.cfg.ver.is12Plus = true
  · exact hword i hi hspecial steady
  · obtain ⟨hreg, hver⟩ := not_or.1 hspecial
    have hreg := not_not.1 hreg
    rw [hreg]
    exact hsr i hi ((hq i hi).symm.trans hreg) (Bool.not_eq_true _ ▸ hver) steady

/-- Settles O25: an ext POP loads no core register, so all of SR stays. -/
theorem extPopLoadsUpwards : Obligations.ExtPopLoadsUpwards := by
  intro fld n rb s hver first hn hfits hne
  have hfirst : extPopFirst s.cfg fld = first := by
    cases h : s.cfg.extPop with
    | minusOne => simp only [extPopFirst_minusOne h, first, h]
    | direct => simp only [extPopFirst_direct h, first, h]
  have hlen : (extPopSet s.cfg fld n).length = n.toNat := length_extRange _ _
  have hplus : s.cfg.ver.is12Plus = true := by rw [hver]; rfl
  have hget (i : Nat) (h : i < (extPopSet s.cfg fld n).length) :
      (extPopSet s.cfg fld n)[i] = xregAt ((first : Int) + (i + 1 : Nat) - 1) := by
    rw [getElem_extPopSet, hfirst]
    congr 1
    omega
  have hfree : rb ∉ extPopSet s.cfg fld n := notMem_of_getElem_ne (q := fun i => xregAt ((first : Int) + (i + 1 : Nat) - 1))
    hget fun i hi => hne (i + 1) (by omega) (by omega)
  have hsr : GReg.core .sr ∉ extPopSet s.cfg fld n := core_notMem_extRange _ _ _
  have hpopped := popRegs_popped rb _ s (nodup_extRange (hfirst ▸ hfits)) hfree (.inr hplus)
  have hrun : exec (.extPop n fld rb) s = .next (popRegs rb (extPopSet s.cfg fld n) s) :=
    (if_neg (not_or.2 ⟨hn, by omega⟩)).trans (if_neg hfree)
  refine ⟨_, hrun, popEffect_of_popped hpopped hlen hget fun i _ _ hold => ?_, fun hrb => ?_⟩
  · exact absurd (hold.symm.trans hplus) Bool.false_ne_true
  · obtain ⟨-, -, -, hstatus, -⟩ := hpopped
    exact hstatus hplus hrb hsr

/-! ### POP register by register

The laws of POP leave open what [1.0] and [1.1] do with SR: there every load but those of SR and PC writes N and Z. -/

/-- One load of POP. -/
def popOne (g r : GReg) (s : State) : State :=
  let y := (s.stepStack g 1).load (stackUp s g 1)
  popFlags (y.2.setGreg r y.1) r y.1

theorem popRegs_cons (g r : GReg) (l : List GReg) (s : State) : popRegs g (r :: l) s = popRegs g l (popOne g r s) := by
  simp only [popRegs, popStep_load]
  rfl

theorem popRegs_append (g : GReg) (l l' : List GReg) (s : State) :
    popRegs g (l ++ l') s = popRegs g l' (popRegs g l s) := by
  induction l generalizing s with
  | nil => rfl
  | cons r l ih => rw [List.cons_append, popRegs_cons, popRegs_cons, ih]

section PopOne

variable {g : GReg} (s : State)

/-- A load into SR or PC writes no flag. -/
theorem popOne_special {r : GReg} (h : r = .core .sr ∨ r = .core .pc) : popOne g r s =
    ((s.stepStack g 1).load (stackUp s g 1)).2.setGreg r ((s.stepStack g 1).load (stackUp s g 1)).1 := by
  obtain ⟨-, -, -, -, -, hsame⟩ := popFlags_same
    (((s.stepStack g 1).load (stackUp s g 1)).2.setGreg r ((s.stepStack g 1).load (stackUp s g 1)).1) r
    ((s.stepStack g 1).load (stackUp s g 1)).1
  exact hsame h

theorem popOne_cfg (g r : GReg) : (popOne g r s).cfg = s.cfg := by
  obtain ⟨⟨⟨hcfg, -⟩, -⟩, -⟩ := popFlags_same
    (((s.stepStack g 1).load (stackUp s g 1)).2.setGreg r ((s.stepStack g 1).load (stackUp s g 1)).1) r
    ((s.stepStack g 1).load (stackUp s g 1)).1
  refine hcfg.trans ?_
  rw [setGreg_cfg, load_cfg, stepStack_cfg]

/-- PC alone leaves SR, with another pointer. -/
theorem popOne_pc_status (hg : g ≠ .core .sr) : (popOne g (.core .pc) s).status = s.status := by
  rw [popOne_special s (.inr rfl), setGreg_status _ _ _ (by decide), load_status, stepStack_status _ _ _ hg]

theorem popRegs_pc_status {l : List GReg} (hg : g ≠ .core .sr) (hl : ∀ q ∈ l, q = .core .pc) :
    (popRegs g l s).status = s.status ∧ (popRegs g l s).cfg = s.cfg := by
  induction l generalizing s with
  | nil => exact ⟨rfl, rfl⟩
  | cons r l ih =>
    obtain rfl : r = .core .pc := hl r List.mem_cons_self
    obtain ⟨hstatus, hcfg⟩ := ih (popOne g (.core .pc) s) fun q hq => hl q (List.mem_cons_of_mem _ hq)
    rw [popRegs_cons, hstatus, hcfg]
    exact ⟨popOne_pc_status s hg, popOne_cfg s g _⟩

/-- SR reads as the word it was loaded from, where at most PC is loaded after it. -/
theorem popRegs_srWord {l l' : List GReg} (hn : (l ++ .core .sr :: l').Nodup) (hg : g ∉ l ++ .core .sr :: l')
    (hl' : ∀ q ∈ l', q = .core .pc) (steady : Steady s (stackUp s g (l.length + 1))) :
    (popRegs g (l ++ .core .sr :: l') s).srWord = s.readWord (stackUp s g (l.length + 1)) := by
  have hgsr : g ≠ .core .sr := fun e => hg (by simp [e])
  obtain ⟨-, hup, -, -, -, ⟨hcfg, -⟩, -, hmem, hlater⟩ :=
    popRegs_popped g l s (List.nodup_append.1 hn).1 (fun e => hg (by simp [e])) (.inl hgsr)
  have haddr : stackUp (popRegs g l s) g 1 = stackUp s g (l.length + 1) := stackUp_of_upBy hcfg hup 1
  have hword : (popRegs g l s).readWord (stackUp s g (l.length + 1)) = s.readWord (stackUp s g (l.length + 1)) :=
    readWord_congr _ hcfg steady.1 fun k hk => hmem k (by rw [ofNat_half _ k hk]; exact steady.2)
  have hloaded : (popOne g (.core .sr) (popRegs g l s)).srWord = s.readWord (stackUp s g (l.length + 1)) := by
    rw [popOne_special _ (.inl rfl), haddr]
    refine (setGreg_greg_same _ (.core .sr) _).trans ((stepStack_load_word _ g 1 _ (Steady.later hlater steady)).trans hword)
  obtain ⟨hstatus, hcfg'⟩ := popRegs_pc_status (popOne g (.core .sr) (popRegs g l s)) hgsr hl'
  rw [popRegs_append, popRegs_cons, State.srWord, hstatus, hcfg']
  exact hloaded

/-- In [1.0] and [1.1] the other loads write N and Z; later versions write none (R173). -/
theorem popFlags_old {r : GReg} (v : Word) (hver : s.cfg.ver.is12Plus = false) (hsr : r ≠ .core .sr)
    (hpc : r ≠ .core .pc) : popFlags s r v = s.setNZ v := by
  unfold popFlags
  cases h : s.cfg.ver with
  | v10 | v11 => exact if_neg (not_or.2 ⟨hsr, hpc⟩)
  | v12 | v13 | v20 =>
    rw [h] at hver
    exact nomatch hver

/-- The status before the flags of a load. -/
theorem popOne_load_status {r : GReg} (hg : g ≠ .core .sr) (hr : r ≠ .core .sr) :
    (((s.stepStack g 1).load (stackUp s g 1)).2.setGreg r ((s.stepStack g 1).load (stackUp s g 1)).1).status =
      s.status := by
  rw [setGreg_status _ _ _ hr, load_status, stepStack_status _ _ _ hg]

theorem popOne_old_status {r : GReg} (hver : s.cfg.ver.is12Plus = false) (hg : g ≠ .core .sr) (hr : r ≠ .core .sr)
    (hpc : r ≠ .core .pc) :
    (popOne g r s).status = s.status.setNZ ((s.stepStack g 1).load (stackUp s g 1)).1 := by
  have hcfg : (((s.stepStack g 1).load (stackUp s g 1)).2.setGreg r
      ((s.stepStack g 1).load (stackUp s g 1)).1).cfg.ver.is12Plus = false := by
    rw [setGreg_cfg, load_cfg, stepStack_cfg]
    exact hver
  rw [popOne, popFlags_old _ _ hcfg hr hpc]
  exact congrArg (fun x => Status.setNZ x _) (popOne_load_status s hg hr)

/-- Where neither SR nor PC is loaded, N and Z at most are written. -/
theorem popRegs_old_status {l : List GReg} (hver : s.cfg.ver.is12Plus = false) (hg : g ≠ .core .sr)
    (hl : .core .sr ∉ l) (hpc : .core .pc ∉ l) :
    ∃ n z : Bool, (popRegs g l s).status = { s.status with n := n, z := z } := by
  induction l generalizing s with
  | nil => exact ⟨s.status.n, s.status.z, rfl⟩
  | cons r l ih =>
    obtain ⟨hr, hl⟩ := not_or.1 (List.mem_cons.not.1 hl)
    obtain ⟨hrp, hpc⟩ := not_or.1 (List.mem_cons.not.1 hpc)
    obtain ⟨n, z, hstatus⟩ := ih (popOne g r s) (by rw [popOne_cfg]; exact hver) hl hpc
    rw [popRegs_cons, hstatus, popOne_old_status s hver hg (Ne.symm hr) (Ne.symm hrp)]
    exact ⟨n, z, rfl⟩

/-- Then N and Z are those of the last word. -/
theorem popRegs_concat_status {l : List GReg} {r : GReg} (hver : s.cfg.ver.is12Plus = false) (hn : (l ++ [r]).Nodup)
    (hg : g ∉ l ++ [r]) (hgsr : g ≠ .core .sr) (hsr : .core .sr ∉ l ++ [r]) (hpc : .core .pc ∉ l ++ [r])
    (steady : Steady s (stackUp s g (l.length + 1))) :
    (popRegs g (l ++ [r]) s).status = { s.status with
      n := (s.readWord (stackUp s g (l.length + 1))).getLsbD 15
      z := decide (s.readWord (stackUp s g (l.length + 1)) = 0) } := by
  obtain ⟨-, hup, -, -, -, ⟨hcfg, -⟩, -, hmem, hlater⟩ :=
    popRegs_popped g l s (List.nodup_append.1 hn).1 (fun e => hg (by simp [e])) (.inl hgsr)
  have haddr : stackUp (popRegs g l s) g 1 = stackUp s g (l.length + 1) := stackUp_of_upBy hcfg hup 1
  have hword : (popRegs g l s).readWord (stackUp s g (l.length + 1)) = s.readWord (stackUp s g (l.length + 1)) :=
    readWord_congr _ hcfg steady.1 fun k hk => hmem k (by rw [ofNat_half _ k hk]; exact steady.2)
  obtain ⟨n, z, hstatus⟩ := popRegs_old_status (l := l) s hver hgsr (fun e => hsr (by simp [e]))
    (fun e => hpc (by simp [e]))
  rw [popRegs_append, popRegs_cons, popRegs, popOne_old_status _ (hcfg ▸ hver) hgsr (fun e => hsr (by simp [e]))
    (fun e => hpc (by simp [e])), haddr, stepStack_load_word _ g 1 _ (Steady.later hlater steady), hword, hstatus,
    ← msb_eq_top]
  rfl

end PopOne

/-! ### POP (R173) -/

section Pop

variable {rd rs : Reg} {n : BitVec 3} (s : State)

theorem length_popSet (rd : Reg) (n : BitVec 3) : (popSet rd n).length = n.toNat := length_coreRange _ _

theorem core_mem_popSet_iff (hfits : rd.num.toNat + n.toNat ≤ 7) (r : Reg) :
    GReg.core r ∈ popSet rd n ↔ rd.num.toNat < r.num.toNat ∧ r.num.toNat ≤ rd.num.toNat + n.toNat := by
  rw [popSet, core_mem_coreRange_iff (by omega)]
  omega

theorem nodup_popSet (hfits : rd.num.toNat + n.toNat ≤ 7) : (popSet rd n).Nodup := nodup_coreRange (by omega)

theorem notMem_popSet (hne : ∀ i : Nat, 1 ≤ i → i ≤ n.toNat → GReg.core rs ≠ regPlus rd i) :
    GReg.core rs ∉ popSet rd n :=
  notMem_of_getElem_ne (q := fun i => regPlus rd (i + 1 : Nat)) (getElem_popSet rd n) fun i hi =>
    hne (i + 1) (by omega) (length_popSet rd n ▸ hi)

/-- POP runs as its list of pops, with a PC loaded through SR in the page of `nextpc`. -/
theorem exec_pop_runs (hn : n ≠ 0#3) (hfits : rd.num.toNat + n.toNat ≤ 7) (hfree : GReg.core rs ∉ popSet rd n) :
    exec (.pop rd n rs) s = .next (popPage (.core rs) (popSet rd n) s (popRegs (.core rs) (popSet rd n) s)) :=
  (if_neg (not_or.2 ⟨hn, by omega⟩)).trans (if_neg hfree)

theorem num_eq_six_iff (r : Reg) : r.num.toNat = 6 ↔ r = .sr := by cases r <;> decide

theorem num_eq_seven_iff (r : Reg) : r.num.toNat = 7 ↔ r = .pc := by cases r <;> decide

/-- Above SR lies PC alone. -/
theorem eq_pc_of_mem_coreRange {lo k : Nat} (hlo : 7 ≤ lo) (h : lo + k ≤ 8) {q : GReg} (hq : q ∈ coreRange lo k) :
    q = .core .pc := by
  obtain ⟨r, rfl⟩ := mem_coreRange hq
  obtain ⟨h1, h2⟩ := (core_mem_coreRange_iff h r).1 hq
  rw [(num_eq_seven_iff r).1 (by omega)]

/-- The range splits at a register. -/
theorem coreRange_add (lo a b : Nat) : coreRange lo (a + b) = coreRange lo a ++ coreRange (lo + a) b := by
  induction a generalizing lo with
  | zero => simp [coreRange]
  | succ a ih =>
    rw [Nat.succ_add, coreRange, coreRange, ih, List.cons_append, Nat.add_assoc, Nat.add_comm 1 a]

/-- SR in the set is loaded as its word reads: at most PC comes after it. -/
theorem popRegs_popSet_srWord (hfits : rd.num.toNat + n.toNat ≤ 7) (hfree : GReg.core rs ∉ popSet rd n) {i : Nat}
    (hi : i < n.toNat) (hsr : rd.num.toNat + (i + 1) = 6) (steady : Steady s (stackUp s (.core rs) (i + 1))) :
    (popRegs (.core rs) (popSet rd n) s).srWord = s.readWord (stackUp s (.core rs) (i + 1)) := by
  obtain ⟨k, hk⟩ : ∃ k : Nat, n.toNat = i + (k + 1) := ⟨n.toNat - (i + 1), by omega⟩
  have hsplit : popSet rd n = coreRange (rd.num.toNat + 1) i ++ .core .sr :: coreRange 7 k := by
    have hnum : rd.num.toNat + 1 + i = 6 := by omega
    rw [popSet, hk, coreRange_add, hnum]
    rfl
  have hnodup := nodup_popSet hfits
  have hlen : (coreRange (rd.num.toNat + 1) i).length = i := length_coreRange _ _
  rw [hsplit] at hnodup hfree ⊢
  have hword := popRegs_srWord s hnodup hfree (fun q hq => eq_pc_of_mem_coreRange le_rfl (by omega) hq)
    (hlen.symm ▸ steady)
  rwa [hlen] at hword

/-- The effect of a POP that the laws or the above cover. -/
theorem popRegs_popEffect (hfits : rd.num.toNat + n.toNat ≤ 7) (hfree : GReg.core rs ∉ popSet rd n)
    (hsr : rs ≠ .sr ∨ s.cfg.ver.is12Plus = true) :
    PopEffect (.core rs) n.toNat (fun i => regPlus rd i) s (popRegs (.core rs) (popSet rd n) s) := by
  have hpopped := popRegs_popped (.core rs) (popSet rd n) s (nodup_popSet hfits) hfree (hsr.imp core_ne_core id)
  refine popEffect_of_popped hpopped (length_popSet rd n) (getElem_popSet rd n) fun i hi hreg _ steady => ?_
  have hmem := regPlus_mem_popSet (rd := rd) (by omega : 1 ≤ i + 1) (by omega : i + 1 ≤ n.toNat)
  have hnum : rd.num.toNat + (i + 1) = 6 := by
    have hget := getElem_popSet rd n i (by rw [length_popSet]; exact hi)
    rw [hreg] at hget
    simp only [popSet, getElem_coreRange, GReg.core.injEq, ofNum_ofNat_eq_iff (by omega : rd.num.toNat + 1 + i < 8)]
      at hget
    have hsix : Reg.sr.num.toNat = 6 := rfl
    omega
  exact popRegs_popSet_srWord s hfits hfree hi hnum steady

end Pop

/-- A step of SR as the pointer writes it whole. -/
theorem stepStack_sr_status (s : State) (d : Int) :
    (s.stepStack (.core .sr) d).status = srFieldsOf s.cfg (s.stepStack (.core .sr) d).srWord := by
  unfold State.stepStack
  split
  · exact congrArg (srFieldsOf s.cfg) (setSr_srWord _ _).symm
  · exact congrArg (srFieldsOf s.cfg) (setSr_srWord _ _).symm

theorem stepStack_sr_regs (s : State) (d : Int) : (s.stepStack (.core .sr) d).regs = s.regs := by
  unfold State.stepStack
  split <;> rfl

/-- POP of PC alone through SR: SR steps onto the word and keeps the CS of `nextpc`. -/
theorem pop_pc_through_sr (s : State) :
    let up := stackUp s (.core .sr) 1
    let t := popPage (.core .sr) [.core .pc] s (popRegs (.core .sr) [.core .pc] s)
    (Steady s up → t.pc = s.readWord up) ∧ t.status = { srFieldsOf s.cfg (offsetOf up) with cs := s.status.cs } ∧
      t.ss = (if s.cfg.ver = .v13 then pageOf up else s.ss) ∧ t.regs = s.regs ∧ MemSameBarDma s t ∧ CoreSame s t ∧
      t.sb = s.sb := by
  intro up t
  let y := (s.stepStack (.core .sr) 1).load up
  have hpopped : t = { y.2.setGreg (.core .pc) y.1 with status := { y.2.status with cs := s.status.cs } } := by
    have hone : popRegs (.core .sr) [.core .pc] s = y.2.setGreg (.core .pc) y.1 :=
      (popRegs_cons _ _ _ s).trans (popOne_special s (.inr rfl))
    exact (popPage_sr _ s _ List.mem_cons_self).trans (by rw [hone]; rfl)
  obtain ⟨hpointer, hss⟩ := stepStack_upBy s (.core .sr)
  obtain ⟨hcore, hsb⟩ := stepStack_core s (.core .sr) 1
  have hpointer : (s.stepStack (.core .sr) 1).srWord = offsetOf up := hpointer
  have hstatus := stepStack_sr_status s 1
  rw [hpointer] at hstatus
  rw [hpopped]
  refine ⟨fun steady => stepStack_load_word s _ 1 up steady, ?_, hss, stepStack_sr_regs s 1, fun k hk => ?_, ?_, hsb⟩
  · exact congrArg (fun x : Status => { x with cs := s.status.cs }) hstatus
  · refine (load_byte (s.stepStack (.core .sr) 1) up k fun e => hk ((stepStack_laterOn s _ 1).2 _ e)).trans ?_
    rw [stepStack_mem]
  · exact coreSame_trans hcore (load_sysSame (s.stepStack (.core .sr) 1) up).1

/-- Settles O24: POP is a list of pops, in which SR comes last but for PC; only PC alone can come through SR. -/
theorem popLoadsUpwards : Obligations.PopLoadsUpwards := by
  intro rd rs n s hn hfits hne
  have hfree := notMem_popSet hne
  have hn1 : 1 ≤ n.toNat := Nat.one_le_iff_ne_zero.2 fun h => hn (BitVec.eq_of_toNat_eq h)
  have hsix : Reg.sr.num.toNat = 6 := rfl
  have hseven : Reg.pc.num.toNat = 7 := rfl
  have hrd : rd = .sr → rd.num.toNat = 6 := fun h => h ▸ rfl
  have hpc (hrs : rs ≠ .sr) : popPage (.core rs) (popSet rd n) s (popRegs (.core rs) (popSet rd n) s) =
      popRegs (.core rs) (popSet rd n) s := popPage_of_pointer _ _ _ _ (core_ne_core hrs)
  refine ⟨_, exec_pop_runs s hn hfits hfree, fun hcase => ⟨?effect, fun hrs hbelow => ?flags⟩, fun hrs hsr => ?pcAlone,
    fun hrs hsr => ?throughSr⟩
  case effect =>
    by_cases hrs : rs = .sr
    · obtain ⟨hsr, hplus⟩ := hcase.resolve_left (not_not.2 hrs)
      have hset : GReg.core .pc ∉ popSet rd n := fun hmem => by
        have hpcRange := (core_mem_popSet_iff hfits .pc).1 hmem
        have hsrRange := (core_mem_popSet_iff hfits .sr).not.1 (hrs ▸ hfree)
        exact hsr ((num_eq_six_iff rd).1 (by omega))
      rw [popPage_of_set _ _ _ _ hset]
      exact popRegs_popEffect s hfits hfree (.inr hplus)
    · rw [hpc hrs]
      exact popRegs_popEffect s hfits hfree (.inl hrs)
  case flags =>
    have hsr : GReg.core .sr ∉ popSet rd n := fun h => by
      have := (core_mem_popSet_iff hfits .sr).1 h
      omega
    have hpcSet : GReg.core .pc ∉ popSet rd n := fun h => by
      have := (core_mem_popSet_iff hfits .pc).1 h
      omega
    rw [hpc hrs]
    cases hplus : s.cfg.ver.is12Plus with
    | true =>
      obtain ⟨-, -, -, hstatus, -⟩ := popRegs_popped (.core rs) (popSet rd n) s (nodup_popSet hfits) hfree (.inr hplus)
      exact hstatus hplus (core_ne_core hrs) hsr
    | false =>
      obtain ⟨k, hk⟩ : ∃ k : Nat, n.toNat = k + 1 := ⟨n.toNat - 1, by omega⟩
      have hsplit : popSet rd n = coreRange (rd.num.toNat + 1) k ++
          [.core (Reg.ofNum (BitVec.ofNat 3 (rd.num.toNat + 1 + k)))] := by
        rw [popSet, hk, coreRange_add]
        rfl
      have hlen : (coreRange (rd.num.toNat + 1) k).length = k := length_coreRange _ _
      have hnodup := nodup_popSet hfits
      rw [hsplit] at hnodup hfree hsr hpcSet ⊢
      intro steady
      rw [hk] at steady ⊢
      have hstatus := popRegs_concat_status s hplus hnodup hfree (core_ne_core hrs) hsr hpcSet (hlen.symm ▸ steady)
      rwa [hlen] at hstatus
  case pcAlone =>
    rw [hpc hrs]
    exact (popRegs_pc_status s (core_ne_core hrs) fun q hq =>
      eq_pc_of_mem_coreRange (by rw [hrd hsr]) (by omega) hq).1
  case throughSr =>
    have hone : n.toNat = 1 := by have := hrd hsr; omega
    have hset : popSet rd n = [.core .pc] := by
      rw [popSet, hone, hrd hsr]
      rfl
    rw [hset, hrs]
    exact pop_pc_through_sr s

end Sys2Proof.Proofs

namespace Sys2Proof.Proofs

open Sys2Proof Sys2Proof.Machine Sys2Proof.Laws

/-! ### POP after PUSH (R172, R173) -/

section Restore

variable {s t u : State} {g : GReg} {l : List GReg}

/-- Each register popped is the one pushed into the same word. -/
theorem greg_of_pushed_popped (hpushed : PushedList g l.reverse s t) (hpopped : PoppedList g l t u)
    (hkept : ∀ i : Nat, i < l.length → Kept s (stackDown s g i)) {q : GReg} (hq : q ∈ l)
    (hsr : q ≠ .core .sr ∨ s.cfg.ver.is12Plus = true) : u.greg q = s.greg q := by
  obtain ⟨hword, -, hdown, -, -, -, ⟨hcfg, -⟩, -, -, hlater⟩ := hpushed
  obtain ⟨hload, -⟩ := hpopped
  rw [List.length_reverse] at hdown
  obtain ⟨i, hi, rfl⟩ := List.mem_iff_getElem.mp hq
  have haddr : stackUp t g (i + 1) = stackDown s g (l.length - 1 - i) := by
    rw [stackUp_of_downBy hcfg hdown hi]
    congr 1
    omega
  have hk := hkept (l.length - 1 - i) (by omega)
  rw [hload i hi (by rw [hcfg]; exact hsr) (haddr ▸ Kept.steady (Kept.later hlater hk)), haddr,
    hword _ (by rw [List.length_reverse]; omega) hk, List.getElem_reverse]
  congr 2
  omega

/-- The pops of a list undo its pushes: every register but SR is restored, and SR from [1.2] on. -/
theorem greg_of_push_pop (hpushed : PushedList g l.reverse s t) (hpopped : PoppedList g l t u)
    (hkept : ∀ i : Nat, i < l.length → Kept s (stackDown s g i)) {q : GReg} (hq : q ≠ .core .sr) :
    u.greg q = s.greg q := by
  by_cases hmem : q ∈ l
  · exact greg_of_pushed_popped hpushed hpopped hkept hmem (.inl hq)
  · obtain ⟨-, -, hdown, hregs, -, -, ⟨hcfg, -⟩, -⟩ := hpushed
    obtain ⟨-, hup, hregs', -⟩ := hpopped
    rw [List.length_reverse] at hdown
    by_cases hg : q = g
    · rw [hg]
      exact (pointer_of_down_up hcfg hdown hup).1
    · exact (hregs' q hg hmem hq).trans (hregs q hg)

theorem status_of_push_pop (hpushed : PushedList g l.reverse s t) (hpopped : PoppedList g l t u)
    (hkept : ∀ i : Nat, i < l.length → Kept s (stackDown s g i)) (hg : g ≠ .core .sr)
    (hplus : s.cfg.ver.is12Plus = true) : u.status = s.status := by
  by_cases hmem : GReg.core .sr ∈ l
  · have hword : u.srWord = s.srWord := greg_of_pushed_popped hpushed hpopped hkept hmem (.inr hplus)
    obtain ⟨-, -, -, -, -, -, ⟨hcfg, -⟩, -⟩ := hpushed
    obtain ⟨-, -, -, -, -, ⟨hcfg', -⟩, -⟩ := hpopped
    exact status_eq_of_srWord (hcfg'.trans hcfg) hword
  · obtain ⟨-, -, -, -, hstatus, -, ⟨hcfg, -⟩, -⟩ := hpushed
    obtain ⟨-, -, -, hstatus', -⟩ := hpopped
    exact (hstatus' (hcfg ▸ hplus) hg hmem).trans (hstatus hg)

end Restore

/-- A PUSH that completes is its list of pushes, of registers the pointer is not among. -/
theorem exec_push_eq {rd rs : Reg} {n : BitVec 3} {s t : State} (h : exec (.push rd n rs) s = .next t) :
    n ≠ 0#3 ∧ GReg.core rs ∉ pushSet rd n ∧ t = pushRegs (.core rs) (pushSet rd n).reverse s := by
  by_cases hset : n = 0#3 ∨ rd.num.toNat + 1 < n.toNat
  · exact nomatch (exec_push_refusedSet hset s).symm.trans h
  · by_cases hmem : GReg.core rs ∈ pushSet rd n
    · have hrefused : exec (.push rd n rs) s = .refused .pointerInSet := (if_neg hset).trans (if_pos hmem)
      exact nomatch hrefused.symm.trans h
    · have hrun : exec (.push rd n rs) s = pushList (.core rs) (pushSet rd n).reverse s :=
        (if_neg hset).trans (if_neg hmem)
      exact ⟨fun h0 => hset (.inl h0), hmem, eq_of_storing (hrun.symm.trans h)⟩

/-- Settles O26: the two sets are the same list, pushed from its end and popped from its start. -/
theorem popUndoesPush : Obligations.PopUndoesPush := by
  intro rd lo rs n s t hm hsr _ _ hnum hkept hpush
  obtain ⟨hn, hfree, rfl⟩ := exec_push_eq hpush
  have hrange := rd.num.isLt
  have hset : pushSet rd n = popSet lo n := by
    rw [pushSet, popSet]
    congr 1
    omega
  rw [hset] at hfree ⊢
  have hfits : lo.num.toNat + n.toNat ≤ 7 := by omega
  have hlen := length_popSet lo n
  have hpushed := pushRegs_pushed (.core rs) (popSet lo n).reverse s hm
    (by rw [List.length_reverse, hlen]; exact toNat_lt_words n) (fun e => hfree (List.mem_reverse.1 e))
  have hpopped := popRegs_popped (.core rs) (popSet lo n) (pushRegs (.core rs) (popSet lo n).reverse s)
    (nodup_popSet hfits) hfree (.inl (core_ne_core hsr))
  rw [← hlen] at hkept
  have hgreg {q : GReg} (hq : q ≠ .core .sr) := greg_of_push_pop hpushed hpopped hkept hq
  refine ⟨_, (exec_pop_runs _ hn hfits hfree).trans
    (congrArg Host.Outcome.next (popPage_of_pointer _ _ _ _ (core_ne_core hsr))), ?regs, ?ss, ?pc, ?status⟩
  case pc => exact hgreg (q := .core .pc) (by decide)
  case status => exact status_of_push_pop hpushed hpopped hkept (core_ne_core hsr)
  case ss =>
    obtain ⟨-, -, hdown, -, -, -, ⟨hcfg, -⟩, -⟩ := hpushed
    obtain ⟨-, hup, -⟩ := hpopped
    rw [List.length_reverse] at hdown
    exact (pointer_of_down_up hcfg hdown hup).2
  case regs =>
    obtain ⟨-, -, -, -, -, -, ⟨hcfg, -, hflags, -, -, -, -, -, hother⟩, -⟩ := hpushed
    obtain ⟨-, -, -, -, -, ⟨hcfg', -, hflags', -, -, -, -, -, hother'⟩, -⟩ := hpopped
    exact regs_eq_of_greg (bank_congr (hcfg'.trans hcfg) (by rw [hflags', hflags])) (fun q hq _ => hgreg hq)
      (hother'.trans hother)

/-! ### RETF after CALL (R330 to R333) -/

/-- What a load of another word leaves of a steady one. -/
theorem load_readWord {s : State} (a : Addr) {b : Addr} (h : Steady s b) : (s.load a).2.readWord b = s.readWord b :=
  readWord_congr b rfl h.1 fun k hk => load_byte s a k (by rw [ofNat_half b k hk]; exact h.2)

/-- Two loads one after the other read two steady words. -/
theorem load_load_word {s : State} (a : Addr) {b : Addr} (h : Steady s b) : ((s.load a).2.load b).1 = s.readWord b :=
  (load_word _ b (Steady.later (load_laterOn s a) h)).trans (load_readWord a h)

theorem stackUpBy_congr {g : GReg} {n : Nat} {r t u : State} (hcfg : r.cfg = t.cfg) (hgreg : r.greg g = t.greg g)
    (hss : r.ss = t.ss) (h : StackUpBy g n r u) : StackUpBy g n t u := by
  have haddr := stackUp_congr hcfg hgreg hss n
  unfold StackUpBy at h ⊢
  rwa [haddr, hcfg, hss] at h

/-- A later state that still has what the core left on the stack. -/
structure SameStack (t r : State) : Prop where
  mem : r.mem = t.mem
  regs : r.regs = t.regs
  ss : r.ss = t.ss
  cfg : r.cfg = t.cfg

theorem SameStack.up {t r : State} (h : SameStack t r) (i : Nat) : stackUp r (.core .sp) i = stackUp t (.core .sp) i :=
  stackUp_congr (g := .core .sp) h.cfg (congrArg Regs.sp h.regs) h.ss i

theorem SameStack.readWord {t r : State} (h : SameStack t r) {a : Addr} (ha : Steady r a) :
    r.readWord a = t.readWord a :=
  readWord_congr a h.cfg (h.cfg ▸ ha.1) fun _ _ => by rw [h.mem]

/-- The stack of `r` holds the return state of `s`: SR and PC above `d` words. -/
structure HoldsReturn (d : Nat) (s r : State) : Prop where
  sr : Steady r (stackUp r (.core .sp) (d + 1)) ∧ r.readWord (stackUp r (.core .sp) (d + 1)) = s.srWord
  pc : Steady r (stackUp r (.core .sp) (d + 2)) ∧ r.readWord (stackUp r (.core .sp) (d + 2)) = s.pc

/-- Saved with `d` words below it, the return state is found again. -/
theorem holdsReturn_of_saved {fr : Option Word} {d : Nat} {s t r : State} (hd : (if fr.isSome then 3 else 2) = d + 2)
    (hcfg : t.cfg = s.cfg) (hsaved : ReturnStateSaved fr s t) (hr : SameStack t r)
    (hkept : ∀ k : Nat, k < d + 2 → Kept s (stackDown s (.core .sp) k) ∧ Kept r (stackDown s (.core .sp) k)) :
    HoldsReturn d s r := by
  obtain ⟨hpc, hsr, -, -, hdown, -⟩ := hsaved
  rw [hd] at hdown
  have haddr {i : Nat} (hi : i ≤ d + 2) : stackUp r (.core .sp) i = stackDown s (.core .sp) (d + 2 - i) :=
    (hr.up i).trans (stackUp_of_downBy hcfg hdown hi)
  have h1 : stackUp r (.core .sp) (d + 1) = stackDown s (.core .sp) 1 := by
    rw [haddr (by omega)]
    congr 1
    omega
  have h0 : stackUp r (.core .sp) (d + 2) = stackDown s (.core .sp) 0 := by
    rw [haddr le_rfl, Nat.sub_self]
  obtain ⟨hs1, hr1⟩ := hkept 1 (by omega)
  obtain ⟨hs0, hr0⟩ := hkept 0 (by omega)
  refine ⟨⟨?_, ?_⟩, ?_, ?_⟩
  · rw [h1]; exact Kept.steady hr1
  · rw [h1, hr.readWord (Kept.steady hr1), hsr hs1]
  · rw [h0]; exact Kept.steady hr0
  · rw [h0, hr.readWord (Kept.steady hr0), hpc hs0]

/-- Where the pointer moved down by `n` words, then up again, SP and SS are restored. -/
theorem stack_restored {n : Nat} {s t r u : State} (hcfg : t.cfg = s.cfg) (hdown : StackDownBy (.core .sp) n s t)
    (hr : SameStack t r) (hup : StackUpBy (.core .sp) n r u) : u.regs.sp = s.regs.sp ∧ u.ss = s.ss :=
  pointer_of_down_up hcfg hdown (stackUpBy_congr (g := .core .sp) hr.cfg (congrArg Regs.sp hr.regs) hr.ss hup)

/-- A call that completes has pushed the return state and jumped. -/
theorem exec_call_eq {hi : Page} {lo : Word} {i : Instr} {s t : State} (hcall : i = .call hi lo ∨ i = .callMr)
    (h : exec i s = .next t) : ∃ a : Addr, t = s.pushReturn.jump a := by
  rcases hcall with rfl | rfl
  · exact ⟨_, eq_of_storing h⟩
  · exact ⟨_, eq_of_storing h⟩

/-- Settles O53: the two words RETF loads are those the CALL stored. -/
theorem retfReturnsFromCall : Obligations.RetfReturnsFromCall := by
  intro hi lo i s t r hm hcall hexec hmem hregs hss hcfg hkept
  have hr : SameStack t r := ⟨hmem, hregs, hss, hcfg⟩
  obtain ⟨a, rfl⟩ := exec_call_eq hcall hexec
  obtain ⟨-, hsaved, -, ⟨hcfgT, -, hflags, -, -, -, -, -, hother⟩, -⟩ := pushReturn_jump_calledTo a s hm
  obtain ⟨hsr, hpc⟩ := holdsReturn_of_saved (d := 0) rfl hcfgT hsaved hr hkept
  obtain ⟨-, -, -, -, hdown, hsame⟩ := hsaved
  obtain ⟨hsrWord, hpcWord, hup, -, -⟩ := returnFar_returnedFar r
  obtain ⟨⟨hcfgU, -⟩, -⟩ := returnFar_core r
  obtain ⟨hsp, hssU⟩ := stack_restored hcfgT hdown hr hup
  refine ⟨r.returnFar, rfl, ?_, ?_, ?_, hssU⟩
  · exact status_eq_of_srWord (hcfgU.trans (hcfg.trans hcfgT)) (hsrWord.trans ((load_word r _ hsr.1).trans hsr.2))
  · exact hpcWord.trans ((load_load_word _ hpc.1).trans hpc.2)
  · rw [returnFar_regs, hsp, hregs, regs_eq_but_sp (bank_congr hcfgT (by rw [hflags])) hsame hother]

/-! ### RETI (R334, R472) -/

/-- What the bus does depends on the parameters, memory, the devices' log and the traffic of DMA alone. -/
structure SameBus (s t : State) : Prop where
  cfg : t.cfg = s.cfg
  mem : t.mem = s.mem
  devLog : t.devLog = s.devLog
  dma : t.dma = s.dma

theorem SameBus.load {s t : State} (h : SameBus s t) (a : Addr) :
    (t.load a).1 = (s.load a).1 ∧ SameBus (s.load a).2 (t.load a).2 := by
  obtain ⟨hcfg, hmem, hlog, hdma⟩ := h
  have hturn : SameBus s.dmaPoint t.dmaPoint := by
    refine ⟨hcfg, ?_, ?_, ?_⟩ <;> simp only [State.dmaPoint, State.dmaNow, State.bus, hcfg, hmem, hlog, hdma]
  obtain ⟨hcfg', hmem', hlog', hdma'⟩ := hturn
  refine ⟨?_, hcfg, hmem', ?_, hdma'⟩
  · simp only [State.load, State.readWord, hcfg', hmem', hlog']
  · simp only [State.load, State.noteRead, State.bus, hcfg', hmem', hlog']

theorem SameBus.memSame {s t : State} (h : SameBus s t) : MemSame s t := ⟨fun _ => by rw [h.mem], h.devLog, h.dma⟩

theorem stackUpBy_zero (s : State) (g : GReg) : StackUpBy g 0 s s := by
  unfold StackUpBy
  rw [← stackAddr_eq_up, State.stackAddr, State.stackPage]
  split <;> simp

theorem stackUpBy_trans {s t u : State} {g : GReg} {m n : Nat} (hcfg : t.cfg = s.cfg) (h : StackUpBy g m s t)
    (k : StackUpBy g n t u) : StackUpBy g (m + n) s u := by
  have haddr := stackUp_of_upBy hcfg h n
  obtain ⟨-, hss⟩ := h
  obtain ⟨hpointer, hss'⟩ := k
  rw [haddr] at hpointer hss'
  refine ⟨hpointer, hss'.trans ?_⟩
  rw [hcfg]
  split
  · rfl
  · rename_i hv
    rw [hss, if_neg hv]

/-- What the pop of FR, or its absence, leaves for the rest of RETI: SP `d` words up, and the bus of `w`. -/
structure FrPopped (d : Nat) (s w v : State) : Prop where
  bus : SameBus w v
  up : StackUpBy (.core .sp) d s v
  cfg : v.cfg = s.cfg
  pins : v.pins = s.pins
  mds : v.mds = s.mds
  dmack : v.dmack = s.dmack
  hold : v.hold = s.hold
  freeIdx : v.freeIdx = s.freeIdx

theorem frPopped_refl (s : State) : FrPopped 0 s s s :=
  ⟨⟨rfl, rfl, rfl, rfl⟩, stackUpBy_zero s _, rfl, rfl, rfl, rfl, rfl, rfl⟩

theorem frPopped_pop (s : State) :
    FrPopped 1 s (s.load (stackUp s (.core .sp) 1)).2 (s.pop.2.setFr s.pop.1) := by
  have hup := stepStack_upBy (s.load (stackUp s (.core .sp) 1)).2 (.core .sp)
  obtain ⟨⟨hcfg, hpins, -, hmds, -, hdmack, hhold, hfree, -⟩, -⟩ :=
    stepStack_core (s.load (stackUp s (.core .sp) 1)).2 (.core .sp) 1
  have hmem := stepStack_mem (s.load (stackUp s (.core .sp) 1)).2 (.core .sp) 1
  have hlog := stepStack_devLog (s.load (stackUp s (.core .sp) 1)).2 (.core .sp) 1
  have hdma := stepStack_dma (s.load (stackUp s (.core .sp) 1)).2 (.core .sp) 1
  rw [pop_eq]
  generalize (s.load (stackUp s (.core .sp) 1)).2.stepStack (.core .sp) 1 = v at *
  exact ⟨⟨hcfg, hmem, hlog, hdma⟩, hup, hcfg, hpins, hmds, hdmack, hhold, hfree⟩

/-- The end of RETI: the far return, and the level out of service. -/
def ReturnsFrom (d : Nat) (s w t : State) : Prop :=
  let y := w.load (stackUp s (.core .sp) (d + 1))
  let z := y.2.load (stackUp s (.core .sp) (d + 2))
  t.srWord = y.1 ∧ t.pc = z.1 ∧ StackUpBy (.core .sp) (d + 2) s t ∧ t.regs = { s.regs with sp := t.regs.sp } ∧
    MemSame z.2 t ∧ t.svc = s.svc.tail ∧ t.cfg = s.cfg ∧ t.pins = s.pins ∧ t.mds = s.mds ∧ t.dmack = s.dmack ∧
    t.hold = s.hold ∧ t.freeIdx = s.freeIdx

theorem returnInt_returnsFrom {d : Nat} {s w : State} (h : FrPopped d s w (frRestored s)) :
    ReturnsFrom d s w s.returnInt := by
  obtain ⟨hsr, hpc, hup, -, hmem⟩ := returnFar_returnedFar (frRestored s)
  obtain ⟨⟨hcfg, hpins, -, hmds, -, hdmack, hhold, hfree, -⟩, -⟩ := returnFar_core (frRestored s)
  obtain ⟨hcfgT, hsvc, -⟩ := returnInt_kept s
  have hregs := returnInt_regs s
  rw [returnInt_eq] at hcfgT hsvc hregs ⊢
  generalize (frRestored s).returnFar = f at *
  rw [stackUp_of_upBy h.cfg h.up] at hsr
  rw [stackUp_of_upBy h.cfg h.up, stackUp_of_upBy h.cfg h.up] at hpc hmem
  obtain ⟨hy, hybus⟩ := h.bus.load (stackUp s (.core .sp) (d + 1))
  obtain ⟨hz, hzbus⟩ := hybus.load (stackUp s (.core .sp) (d + 2))
  exact ⟨hsr.trans hy, hpc.trans hz, stackUpBy_trans h.cfg h.up hup, hregs,
    memSame_trans hzbus.memSame hmem, hsvc, hcfgT, hpins.trans h.pins, hmds.trans h.mds, hdmack.trans h.dmack,
    hhold.trans h.hold, hfree.trans h.freeIdx⟩

theorem returnInt_flags (s : State) : s.returnInt.flags = (frRestored s).flags ∧ s.returnInt.sb = (frRestored s).sb := by
  obtain ⟨⟨-, -, hflags, -⟩, hsb⟩ := returnFar_core (frRestored s)
  rw [returnInt_eq]
  generalize (frRestored s).returnFar = f at *
  exact ⟨hflags, hsb⟩

/-- RETI with no FR on the stack. -/
theorem returnInt_done_plain {s : State} (h : s.restoresFr = false) :
    ReturnsFrom 0 s s s.returnInt ∧ s.returnInt.flags = s.flags ∧ s.returnInt.sb = s.sb := by
  have hfr := frRestored_false h
  obtain ⟨hflags, hsb⟩ := returnInt_flags s
  rw [hfr] at hflags hsb
  exact ⟨returnInt_returnsFrom (hfr.symm ▸ frPopped_refl s), hflags, hsb⟩

/-- RETI with FR on the stack: it is popped first. -/
theorem returnInt_done_fr {s : State} (h : s.restoresFr = true) :
    let x := s.load (stackUp s (.core .sp) 1)
    ReturnsFrom 1 s x.2 s.returnInt ∧ s.returnInt.flags = FlagReg.ofWord x.1 ∧
      s.returnInt.sb = (withShiftBuf s (x.1.extractLsb' 7 4)).sb := by
  have hfr := frRestored_true h
  obtain ⟨hflags, hsb⟩ := returnInt_flags s
  rw [hfr] at hflags hsb
  refine ⟨returnInt_returnsFrom (hfr.symm ▸ frPopped_pop s), ?_, ?_⟩
  · rw [hflags, pop_eq]
    rfl
  · rw [hsb, pop_eq, ← withShiftBuf_sb_congr (s := s) (stepStack_svc (s.load (stackUp s (.core .sp) 1)).2 (.core .sp) 1)
      (stepStack_sb _ _ _), ← setShiftBuf_eq_withShiftBuf]
    rfl

/-- With nothing in service RETI is RETF. -/
theorem returnInt_of_nil {s : State} (h : s.svc = []) : s.returnInt = s.returnFar := by
  have hno : s.restoresFr = false := by
    unfold State.restoresFr
    rw [h]
    cases s.cfg.ver <;> rfl
  obtain ⟨⟨-, -, -, -, hsvc, -⟩, -⟩ := returnFar_core s
  have hnil : s.returnFar.svc.tail = s.returnFar.svc := by rw [hsvc, h]; rfl
  rw [returnInt_eq, frRestored_false hno, hnil]

theorem exec_reti (s : State) : exec .reti s = .next s.returnInt := rfl

/-- Settles O54: by whether FR is on the stack. -/
theorem retiReturns : Obligations.RetiReturns := by
  intro s withFr
  have hwith : s.restoresFr = withFr := by
    unfold State.restoresFr
    cases h : s.cfg.ver <;> simp [withFr, h]
  have hnil (h : s.svc = []) : exec .retf s = .next s.returnInt :=
    congrArg Host.Outcome.next (returnInt_of_nil h).symm
  clear_value withFr
  cases withFr with
  | false =>
    obtain ⟨⟨hsr, hpc, hup, hregs, hmem, hsvc, hcfg, hpins, hmds, hdmack, hhold, hfree⟩, hflags, hsb⟩ :=
      returnInt_done_plain hwith
    simp only [Bool.false_eq_true, if_false]
    exact ⟨s.returnInt, exec_reti s, hsr, hpc, hup, hregs, hmem, hsvc, hcfg, hpins, hmds, hdmack, hhold, hfree,
      fun _ => ⟨hflags, hsb⟩, False.elim, hnil⟩
  | true =>
    obtain ⟨⟨hsr, hpc, hup, hregs, hmem, hsvc, hcfg, hpins, hmds, hdmack, hhold, hfree⟩, hflags, hsb⟩ :=
      returnInt_done_fr hwith
    simp only [if_true]
    exact ⟨s.returnInt, exec_reti s, hsr, hpc, hup, hregs, hmem, hsvc, hcfg, hpins, hmds, hdmack, hhold, hfree,
      Bool.noConfusion, fun _ => ⟨hflags, hsb⟩, hnil⟩

/-! ### RETI after an entry (R334, R454, R467, R472, R473) -/

/-- FR's word names its fields. -/
theorem flagReg_ofWord_frWord (s : State) : FlagReg.ofWord s.frWord = s.flags ∧ s.frWord.extractLsb' 7 4 = s.shiftBuf := by
  have hbuf : s.frWord.extractLsb' 7 4 = s.shiftBuf := by
    rw [State.frWord]
    simp only [BitVec.extractLsb'_append_eq_of_le (show 4 ≤ 7 by decide),
      BitVec.extractLsb'_append_eq_of_le (show 1 ≤ 3 by decide), BitVec.extractLsb'_append_eq_of_le (show 1 ≤ 2 by decide),
      BitVec.extractLsb'_append_eq_of_le (show 1 ≤ 1 by decide)]
    exact BitVec.extractLsb'_append_eq_right
  have hpri : s.frWord.extractLsb' 0 4 = s.flags.pri := BitVec.extractLsb'_append_eq_right
  refine ⟨?_, hbuf⟩
  rw [FlagReg.ofWord, hpri]
  simp only [State.frWord, BitVec.getLsbD_append, BitVec.getLsbD_ofBool]
  simp

/-- RETI pops FR just where the entry saved it: the entry keeps INE and puts its own level on top. -/
theorem restoresFr_of_entered {e : Event} {s r : State} (he : e = .fiq ∨ ∃ n, e = .irq n) (hcfg : r.cfg = s.cfg)
    (hflags : r.flags = specEntryFlags s e) (hsvc : r.svc = eventLevel e :: s.svc) : r.restoresFr = SavesFr s e := by
  unfold State.restoresFr SavesFr
  rw [hcfg, hflags, hsvc]
  rcases he with rfl | ⟨n, rfl⟩ <;> cases hv : s.cfg.ver <;> simp [eventLevel, specEntryFlags, hv]
  all_goals split <;> simp_all

/-- Where FR is not saved, the entry leaves it. -/
theorem specEntryFlags_of_not_saved {e : Event} {s : State} (h : SavesFr s e = false) : specEntryFlags s e = s.flags := by
  unfold SavesFr at h
  unfold specEntryFlags
  cases hv : s.cfg.ver <;> cases e <;> simp_all

/-- The buffer of the level that ends keeps what the buffer in use held before it. -/
theorem shiftBuf_of_restored {l : Level} {s r u : State} (hl : l = .fiq ∨ l = .irq) (hsvc : r.svc = l :: s.svc)
    (hsb : r.sb = s.sb) (hu : u.svc = s.svc) (husb : u.sb = (withShiftBuf r s.shiftBuf).sb) :
    u.shiftBuf = s.shiftBuf := by
  rw [← setShiftBuf_eq_withShiftBuf] at husb
  simp only [State.setShiftBuf, hsvc, hsb] at husb
  have hin : u.shiftBuf = if Level.fiq ∈ s.svc then u.sb.fiq else if Level.irq ∈ s.svc then u.sb.irq else u.sb.user := by
    rw [State.shiftBuf, hu]
  rw [hin, husb]
  unfold State.shiftBuf
  rcases hl with rfl | rfl <;> by_cases hfiq : Level.fiq ∈ s.svc <;> by_cases hirq : Level.irq ∈ s.svc <;>
    simp [hfiq, hirq]

/-- A step at a sampling point that takes a request enters it (O56). -/
theorem step_takes_entered {e : Event} {s t : State} (hrun : Running s) (hm : Memory.wf s.mem = true)
    (hhold : s.hold = false) (htakes : Takes s e) (hfirst : e ≠ .fiq → ¬ Takes s .fiq) (hstep : step s = .next t) :
    Entered e s t := by
  obtain ⟨hfiq, hirq, -⟩ := requestsAreTaken s hrun hm
  obtain rfl | ⟨n, rfl⟩ := takes_cases htakes
  · obtain ⟨u, hu, hentered, -⟩ := hfiq hhold htakes
    exact Host.Outcome.next.inj (hu.symm.trans hstep) ▸ hentered
  · obtain ⟨u, hu, hentered, -⟩ := hirq n hhold (hfirst Event.noConfusion) htakes
    exact Host.Outcome.next.inj (hu.symm.trans hstep) ▸ hentered

/-- The far return at the end of RETI finds SR and PC. -/
theorem returnsFrom_restores {d : Nat} {s r w u : State} (hcfg : r.cfg = s.cfg) (h : ReturnsFrom d r w u)
    (hw : ∀ a : Addr, Steady r a → Steady w a ∧ w.readWord a = r.readWord a) (hr : HoldsReturn d s r) :
    u.status = s.status ∧ u.pc = s.pc := by
  obtain ⟨hsr, hpc, -, -, -, -, hcfgU, -⟩ := h
  obtain ⟨⟨hsrSteady, hsrWord⟩, hpcSteady, hpcWord⟩ := hr
  obtain ⟨hw1, hr1⟩ := hw _ hsrSteady
  obtain ⟨hw2, hr2⟩ := hw _ hpcSteady
  exact ⟨status_eq_of_srWord (hcfgU.trans hcfg) (hsr.trans ((load_word w _ hw1).trans (hr1.trans hsrWord))),
    hpc.trans ((load_load_word _ hw2).trans (hr2.trans hpcWord))⟩

/-- Settles O57: what RETI pops is what the entry saved. -/
theorem retiRestoresInterruptedProgram : Obligations.RetiRestoresInterruptedProgram := by
  intro e s t r hrun hm hhold htakes hfirst hstep hmem hregs hss hcfgR hflagsR hsbR hsvcR hkept
  have he := takes_cases htakes
  obtain ⟨hsaved, -, -, hflags, hsvc, hcfg, -, hsb, -, -, hother⟩ :=
    step_takes_entered hrun hm hhold htakes hfirst hstep
  have hr : SameStack t r := ⟨hmem, hregs, hss, hcfgR⟩
  have hcfgRs := hcfgR.trans hcfg
  have hsvcRs := hsvcR.trans hsvc
  have hrestores := restoresFr_of_entered he hcfgRs (hflagsR.trans hflags) hsvcRs
  have hlevel : eventLevel e = .fiq ∨ eventLevel e = .irq := by
    rcases he with rfl | ⟨n, rfl⟩
    · exact .inl rfl
    · exact .inr rfl
  have hsvcU : r.returnInt.svc = s.svc := by
    obtain ⟨-, hsvcU, -⟩ := returnInt_kept r
    rw [hsvcU, hsvcRs]
    rfl
  have hregsT : t.regs = { s.regs with sp := t.regs.sp } := by
    obtain ⟨-, -, -, -, -, hsame⟩ := hsaved
    exact regs_eq_but_sp (bank_congr hcfg (by rw [hflags, specEntryFlags_bnk])) hsame hother
  have hregsU (hsp : r.returnInt.regs.sp = s.regs.sp) : r.returnInt.regs = s.regs := by
    rw [returnInt_regs, hsp, hregs, hregsT]
  cases hsaves : SavesFr s e with
  | false =>
    rw [hsaves] at hsaved hkept hrestores
    have hreturn := holdsReturn_of_saved (d := 0) rfl hcfg hsaved hr hkept
    obtain ⟨hfrom, hflagsU, hsbU⟩ := returnInt_done_plain hrestores
    obtain ⟨hstatus, hpc⟩ := returnsFrom_restores hcfgRs hfrom (fun a h => ⟨h, rfl⟩) hreturn
    obtain ⟨-, -, hup, -⟩ := hfrom
    obtain ⟨-, -, -, -, hdown, -⟩ := hsaved
    obtain ⟨hsp, hssU⟩ := stack_restored hcfg hdown hr hup
    refine ⟨r.returnInt, exec_reti r, hstatus, hpc, hregsU hsp, hssU, ?_, hsvcU, ?_⟩
    · rw [hflagsU, hflagsR, hflags, specEntryFlags_of_not_saved hsaves]
    · rw [State.shiftBuf, hsvcU, hsbU, hsbR, hsb]
      rfl
  | true =>
    rw [hsaves] at hsaved hkept hrestores
    have hreturn := holdsReturn_of_saved (d := 1) rfl hcfg hsaved hr hkept
    obtain ⟨hfrom, hflagsU, hsbU⟩ := returnInt_done_fr hrestores
    obtain ⟨hstatus, hpc⟩ := returnsFrom_restores hcfgRs hfrom
      (fun a h => ⟨Steady.later (load_laterOn r _) h, load_readWord _ h⟩) hreturn
    obtain ⟨-, -, hup, -⟩ := hfrom
    obtain ⟨-, -, hfr, -, hdown, -⟩ := hsaved
    have hdown : StackDownBy (.core .sp) 3 s t := hdown
    obtain ⟨hsp, hssU⟩ := stack_restored hcfg hdown hr hup
    obtain ⟨hs2, hr2⟩ := hkept 2 (by decide)
    have haddr : stackUp r (.core .sp) 1 = stackDown s (.core .sp) 2 := by
      rw [hr.up, stackUp_of_downBy hcfg hdown (show 1 ≤ 3 by decide)]
    have hword : (r.load (stackUp r (.core .sp) 1)).1 = s.frWord := by
      rw [haddr, load_word r _ (Kept.steady hr2), hr.readWord (Kept.steady hr2)]
      exact hfr s.frWord rfl hs2
    obtain ⟨hfields, hbuf⟩ := flagReg_ofWord_frWord s
    rw [hword] at hflagsU hsbU
    rw [hbuf] at hsbU
    exact ⟨r.returnInt, exec_reti r, hstatus, hpc, hregsU hsp, hssU, hflagsU.trans hfields, hsvcU,
      shiftBuf_of_restored hlevel hsvcRs (hsbR.trans hsb) hsvcU hsbU⟩

end Sys2Proof.Proofs


namespace Sys2Proof.Proofs

open Sys2Proof Sys2Proof.Machine Sys2Proof.Laws

/-! ### MULS as a whole (R264, R266, R517) -/

section Whole

variable (k : MulKind) (rd rs : Reg) (n : BitVec 4) (s : State)

/-- The FIR move is on: FIR_MOVE is 0 and there is more than one level (R264). -/
def movesForward (n : BitVec 4) (s : State) : Bool := !s.flags.fir && decide (1 < levelCount n)

theorem movesForward_off (h : s.flags.fir = true ∨ n = 1#4) : movesForward n s = false := by
  unfold movesForward
  rcases h with hfir | rfl
  · rw [hfir]; rfl
  · exact Bool.and_false _

/-- With operands the spec allows MULS runs its levels, but for the words its move must not store to. -/
theorem mulsRegs_runs (hok : MulsOperandsOk s.cfg.ver rd rs (levelCount n)) : mulsRegs k rd n rs s =
    storing s (if movesForward n s then mulsStores rd rs (levelCount n - 1) s else [])
      (mulsFinish (BitVec.ofInt 36 (mulsLevels k rd rs (movesForward n s) (levelCount n) none 0 s).1)
        (mulsLevels k rd rs (movesForward n s) (levelCount n) none 0 s).2) := by
  have hallowed : mulsExcluded s.cfg.ver (mulsCount n) rd rs = false := mulsExcluded_of_ok hok
  exact if_neg (by rw [hallowed]; exact Bool.false_ne_true)

/-- The operands the spec excludes are those the model refuses. -/
theorem mulsExcluded_of_not_ok {ver : Version} {c : Nat} (h : ¬ MulsOperandsOk ver rd rs c) :
    mulsExcluded ver c rd rs = true := by
  unfold MulsOperandsOk at h
  unfold mulsExcluded
  by_cases h12 : ver.is12Plus = true
  · rw [if_pos h12, Classical.not_not] at h
    simpa [h12, and_assoc] using h
  · rw [if_neg h12] at h ⊢
    have hallowed {r : Reg} (hr : mulsRegAllowed r = true) : r = .r1 ∨ r = .r2 ∨ r = .bp := by
      cases r <;> simp_all [mulsRegAllowed]
    rw [Bool.not_eq_true', Bool.eq_false_iff]
    intro hall
    simp only [Bool.and_eq_true, decide_eq_true_eq] at hall
    obtain ⟨⟨hd, hs⟩, hne⟩ := hall
    exact h ⟨hallowed hd, hallowed hs, hne⟩

theorem mulsRegs_refused (h : ¬ MulsOperandsOk s.cfg.ver rd rs (levelCount n)) :
    mulsRegs k rd n rs s = .refused .mulsOperand := by
  exact if_pos (mulsExcluded_of_not_ok rd rs h)

/-- MULS completes where its move, if there is one, stores to no word fetched ahead. -/
theorem mulsRegs_next (hok : MulsOperandsOk s.cfg.ver rd rs (levelCount n))
    (hfree : movesForward n s = true → ∀ a ∈ mulsStores rd rs (levelCount n - 1) s, ¬ Ahead s a) :
    mulsRegs k rd n rs s =
      .next (mulsFinish (BitVec.ofInt 36 (mulsLevels k rd rs (movesForward n s) (levelCount n) none 0 s).1)
        (mulsLevels k rd rs (movesForward n s) (levelCount n) none 0 s).2) := by
  rw [mulsRegs_runs k rd rs n s hok]
  refine storing_next s _ _ fun a ha => ?_
  split at ha
  · next hmove => exact hfree hmove a ha
  · exact absurd ha List.not_mem_nil

end Whole

/-- Settles O35: the levels of MULS without the FIR move. -/
theorem mulsSumsProducts : Obligations.MulsSumsProducts := by
  intro rd rs n s hne hok hoff
  have hmove : movesForward n s = false := movesForward_off n s hoff
  have done (k : MulKind) := mulsRegs_done k rd rs n s hne hok hmove (fun h => Bool.noConfusion h)
    (fun h => Bool.noConfusion h)
  exact ⟨done .uu, done .us, done .ss⟩

/-! ### MULS on one pointer (R266, R267) -/

/-- The address of level `i` where one register is both pointers, in page 0: it steps twice for each level. -/
def oneArray (s : State) (r : Reg) (i : Nat) : Addr := mkAddr 0 (s.reg r + BitVec.ofNat 16 (2 * i))

/-- `t` is `s` with the one pointer `i` levels on, as far as registers go. -/
structure OneAtLevel (r : Reg) (i : Nat) (s t : State) : Prop where
  reg : t.reg r = s.reg r + BitVec.ofNat 16 (2 * i)
  other : ∀ q : GReg, q ≠ .core r → t.greg q = s.greg q
  status : r ≠ .sr → t.status = s.status
  sys : SysSame s t

section OnePointer

variable {r : Reg} {i : Nat} {s t u : State}

theorem oneAtLevel_zero (r : Reg) (s : State) : OneAtLevel r 0 s s where
  reg := (BitVec.add_zero _).symm
  other _ _ := rfl
  status _ := rfl
  sys := sysSame_refl s

theorem OneAtLevel.cfg (h : OneAtLevel r i s t) : t.cfg = s.cfg := h.sys.1.1

/-- An access of memory leaves the level. -/
theorem OneAtLevel.load (h : OneAtLevel r i s t) (a : Addr) : OneAtLevel r i s (t.load a).2 where
  reg := (load_greg t a (.core r)).trans h.reg
  other q hq := (load_greg t a q).trans (h.other q hq)
  status := h.status
  sys := sysSame_trans h.sys (load_sysSame t a)

theorem OneAtLevel.eaD (h : OneAtLevel r i s t) (hv : s.cfg.ver ≠ .v13) : mulsEaD t r = oneArray s r i := by
  unfold mulsEaD oneArray
  rw [h.cfg, if_neg hv, h.reg]

theorem OneAtLevel.eaS (h : OneAtLevel r i s t) (hv : s.cfg.ver ≠ .v13) : mulsEaS t r = oneArray s r i := by
  unfold mulsEaS oneArray
  rw [h.cfg, if_neg hv, h.reg]

/-- Outside 1.3 the two steps of a level are two steps of the pointer alone. -/
theorem mulsSteps_one (hv : t.cfg.ver ≠ .v13) : mulsStepS (mulsStepD t r) r =
    (t.setReg r (t.reg r + 1)).setReg r (t.reg r + 1 + 1) := by
  unfold mulsStepS mulsStepD
  simp only [hv, setReg_cfg, setReg_reg_same, false_and, if_false]

theorem OneAtLevel.step (h : OneAtLevel r i s t) (hv : s.cfg.ver ≠ .v13) :
    OneAtLevel r (i + 1) s (mulsStepS (mulsStepD t r) r) := by
  rw [mulsSteps_one (h.cfg ▸ hv)]
  refine ⟨?_, fun q hq => ?_, fun hr => ?_, ?_⟩
  · rw [setReg_reg_same, h.reg, Nat.mul_add, BitVec.ofNat_add, BitVec.add_assoc, BitVec.add_assoc]
    rfl
  · exact (setGreg_greg_other _ (.core r) q _ hq).trans ((setGreg_greg_other _ (.core r) q _ hq).trans (h.other q hq))
  · have hcore : GReg.core r ≠ .core .sr := fun e => hr (GReg.core.inj e)
    exact (setGreg_status _ (.core r) _ hcore).trans ((setGreg_status _ (.core r) _ hcore).trans (h.status hr))
  · exact sysSame_trans h.sys (sysSame_trans (setGreg_sysSame _ (.core r) _) (setGreg_sysSame _ (.core r) _))

/-- The words the FIR move stores to on one pointer are the levels after the first. -/
theorem mem_mulsStores_one (h : OneAtLevel r i s t) (hv : s.cfg.ver ≠ .v13) (n : Nat) (a : Addr) :
    a ∈ mulsStores r r n t ↔ ∃ j : Nat, i < j ∧ j ≤ i + n ∧ a = oneArray s r j := by
  induction n generalizing i t with
  | zero => simp [mulsStores]; omega
  | succ n ih =>
    rw [mulsStores, List.mem_cons, ih (h.step hv), (h.step hv).eaD hv]
    constructor
    · rintro (rfl | ⟨j, h1, h2, rfl⟩)
      · exact ⟨i + 1, by omega, by omega, rfl⟩
      · exact ⟨j, by omega, by omega, rfl⟩
    · rintro ⟨j, h1, h2, rfl⟩
      rcases Nat.eq_or_lt_of_le (Nat.succ_le_of_lt h1) with rfl | h3
      · exact .inl rfl
      · exact .inr ⟨j, h3, by omega, rfl⟩

/-- `t` is `s` after loads: memory changed by DMA alone, and less DMA ahead. -/
def OnlyLoaded (s t : State) : Prop := LaterOn s t ∧ MemSameBarDma s t

theorem OnlyLoaded.load (h : OnlyLoaded s t) (a : Addr) : OnlyLoaded s (t.load a).2 :=
  ⟨laterOn_trans h.1 (load_laterOn t a), fun b hb => (load_byte t a b fun e => hb (h.1.2 _ e)).trans (h.2 b hb)⟩

/-- A steady word still loads as it read before. -/
theorem OnlyLoaded.load_word (h : OnlyLoaded s t) {a : Addr} (ha : Steady s a) : (t.load a).1 = s.readWord a :=
  (Laws.load_word t a (Steady.later h.1 ha)).trans
    (readWord_congr a h.1.1 ha.1 fun b hb => h.2 b (by rw [ofNat_half a b hb]; exact ha.2))

theorem OnlyLoaded.steps (h : OnlyLoaded s t) (hcfg : (mulsStepS (mulsStepD t r) r).cfg = t.cfg) :
    OnlyLoaded s (mulsStepS (mulsStepD t r) r) := by
  obtain ⟨hmem, -, hdma⟩ := mulsSteps_bus t r r
  exact ⟨laterOn_trans h.1 (laterOn_of_eq hcfg hdma), fun b hb => hmem ▸ h.2 b hb⟩

/-- One product of the sum, in any state with the flags and the version of the first. -/
theorem OneAtLevel.mulProduct (h : OneAtLevel r i s t) (k : MulKind) (x y : Word) :
    mulProduct t k x y = specProduct k (FractionOn s) x y := by
  have hfraction : FractionOn t = FractionOn s := by
    unfold FractionOn
    rw [h.cfg, h.sys.1.2.2.1]
  rw [mulProduct_eq_specProduct k x y (atLevel_zero r r t), hfraction]

/-- The levels of MULS on one pointer without the FIR move: the registers, whatever the words are. -/
theorem mulsLevels_one (k : MulKind) (hv : s.cfg.ver ≠ .v13) {c : Nat}
    (hsteady : ∀ l : Nat, l < c → Steady s (oneArray s r l)) (n : Nat) (hn : i + n = c) (prev : Option Word)
    (hl : OneAtLevel r i s t) (hm : OnlyLoaded s t) :
    let x (l : Nat) : Word := s.readWord (oneArray s r l)
    let run := mulsLevels k r r false n prev (specSum k (FractionOn s) x x i) t
    run.1 = specSum k (FractionOn s) x x c ∧ OneAtLevel r c s run.2 ∧ OnlyLoaded s run.2 := by
  induction n generalizing i t prev with
  | zero =>
    obtain rfl : i = c := hn
    exact ⟨rfl, hl, hm⟩
  | succ n ih =>
    have hi := hsteady i (by omega)
    have hx := hm.load_word hi
    have hy := (hm.load (oneArray s r i)).load_word hi
    have hlevel := (hl.load (oneArray s r i)).load (oneArray s r i)
    have hloaded := (hm.load (oneArray s r i)).load (oneArray s r i)
    have hstill (u : State) : firStore u false r prev = u := by cases prev <;> rfl
    have hstep := hlevel.step hv
    have hrest := ih (by omega) (some (s.readWord (oneArray s r i))) hstep
      (hloaded.steps (hstep.cfg.trans hlevel.cfg.symm))
    simp only [mulsLevels, hl.eaD hv, hl.eaS hv, hx, hy, hl.mulProduct, hstill]
    exact hrest

/-- The levels on one pointer and the end together are the effect the rule states. -/
theorem mulsEffect_of_oneLevels {k : MulKind} {c : Nat} {acc : BitVec 36} (hv : s.cfg.ver ≠ .v13)
    (hacc : acc = BitVec.ofInt 36 (specSum k (FractionOn s) (fun l => s.readWord (oneArray s r l))
      (fun l => s.readWord (oneArray s r l)) c))
    (hl : OneAtLevel r c s u) (hm : OnlyLoaded s u) (hf : Finished acc u t) :
    MulsEffect k r r c (fun l => s.readWord (oneArray s r l)) (fun l => s.readWord (oneArray s r l)) (oneArray s r)
      (oneArray s r) false s t := by
  obtain ⟨⟨hcfg, hpins, hflags, hmds, hsvc, hdmack, hhold, hfree, hbank⟩, hss, hsb⟩ := hl.sys
  obtain ⟨fcfg, fpins, fflags, fss, fsvc, fdmack, fhold, fbank⟩ := hf.sys
  obtain ⟨v, fsb⟩ := hf.sb
  have hcore {r q : Reg} (h : r ≠ q) : GReg.core r ≠ GReg.core q := fun e => h (GReg.core.inj e)
  have hreg (h3 : r ≠ .r3) (h4 : r ≠ .r4) (hsr : r ≠ .sr) : t.reg r = offsetOf (oneArray s r c) :=
    (hf.other (.core r) (hcore h3) (hcore h4) (hcore hsr)).trans (hl.reg.trans (offsetOf_mkAddr _ _).symm)
  have hpc : t.pc = u.pc := hf.other (.core .pc) (by decide) (by decide) (by decide)
  have h12 := hcfg ▸ hf.guard
  subst hacc
  refine ⟨hf.mr, fun h => ⟨(h12 h).1, (h12 h).2.trans hfree⟩, hreg, hreg,
    (hf.mds.trans hmds).trans (if_neg hv).symm, fun hr _ => ?_, fun hr _ => ?_,
    fun q hq _ h3 h4 hsr _ => (hf.other q h3 h4 hsr).trans (hl.other q hq), fun _ b hb => ?_,
    fun h => Bool.noConfusion h, ⟨v, ?_⟩, fcfg.trans hcfg, fpins.trans hpins, fflags.trans hflags, fss.trans hss,
    fsvc.trans hsvc, fdmack.trans hdmack, fhold.trans hhold, fbank.trans hbank⟩
  · rw [hf.status, hl.status hr, hcfg]
  · exact hpc.trans (hl.other (.core .pc) (hcore (Ne.symm hr)))
  · rw [hf.bus.1]
    exact hm.2 b hb
  · rw [fsb, withShiftBuf_sb_congr hsvc hsb]

end OnePointer

section OnePointerMuls

variable (k : MulKind) (r : Reg) (n : BitVec 4) (s : State) (hv : s.cfg.ver ≠ .v13)
  (hok : MulsOperandsOk s.cfg.ver r r (levelCount n))

include hv hok

/-- MULS on one pointer without the FIR move. -/
theorem mulsRegs_one_still (hoff : movesForward n s = false) : ∃ t : State, mulsRegs k r n r s = .next t ∧
    ((∀ l : Nat, l < levelCount n → Steady s (oneArray s r l)) →
      MulsEffect k r r (levelCount n) (fun l => s.readWord (oneArray s r l)) (fun l => s.readWord (oneArray s r l))
        (oneArray s r) (oneArray s r) false s t) := by
  refine ⟨_, mulsRegs_next k r r n s hok fun hon => absurd (hoff.symm.trans hon) Bool.false_ne_true,
    fun hsteady => ?_⟩
  rw [hoff]
  obtain ⟨hsum, hl, hm⟩ := mulsLevels_one k hv hsteady (levelCount n) (Nat.zero_add _) none (oneAtLevel_zero r s)
    ⟨laterOn_refl s, fun _ _ => rfl⟩
  exact mulsEffect_of_oneLevels hv (congrArg (BitVec.ofInt 36) hsum) hl hm (mulsFinish_finished _ _)

/-- The FIR move on one pointer stops MULS where, and only where, it stores to a word fetched ahead. -/
theorem mulsRegs_one_moves (hfir : s.flags.fir = false) :
    let ahead : Prop := ∃ l : Nat, 1 ≤ l ∧ l < levelCount n ∧ Ahead s (oneArray s r l)
    (ahead → mulsRegs k r n r s = .refused .storeAhead) ∧ (¬ ahead → ∃ t : State, mulsRegs k r n r s = .next t) := by
  have hstores (a : Addr) : a ∈ mulsStores r r (levelCount n - 1) s ↔
      ∃ l : Nat, 1 ≤ l ∧ l < levelCount n ∧ a = oneArray s r l := by
    rw [mem_mulsStores_one (oneAtLevel_zero r s) hv]
    exact exists_congr fun j => ⟨fun ⟨h1, h2, h3⟩ => ⟨h1, by omega, h3⟩, fun ⟨h1, h2, h3⟩ => ⟨h1, by omega, h3⟩⟩
  refine ⟨fun ⟨l, h1, h2, hahead⟩ => ?_, fun hfree => ⟨_, mulsRegs_next k r r n s hok fun _ a ha hahead => hfree ?_⟩⟩
  · have hmove : movesForward n s = true := by simp [movesForward, hfir, Nat.lt_of_le_of_lt h1 h2]
    rw [mulsRegs_runs k r r n s hok, if_pos hmove]
    exact storing_refused s _ _ _ ((hstores _).2 ⟨l, h1, h2, rfl⟩) hahead
  · obtain ⟨l, h1, h2, rfl⟩ := (hstores a).1 ha
    exact ⟨l, h1, h2, hahead⟩

end OnePointerMuls

/-- The three MULS instructions are one instruction by the kind of the product. -/
theorem exec_muls_of_mem {rd rs : Reg} {n : BitVec 4} {i : Instr} {k : MulKind}
    (h : (i, k) ∈ [(Instr.mulsUu rd n rs, MulKind.uu), (.mulsUs rd n rs, .us), (.mulsSs rd n rs, .ss)]) (s : State) :
    exec i s = mulsRegs k rd n rs s := by
  simp only [List.mem_cons, List.not_mem_nil, or_false, Prod.mk.injEq] at h
  rcases h with ⟨rfl, rfl⟩ | ⟨rfl, rfl⟩ | ⟨rfl, rfl⟩ <;> rfl

/-- Settles O37: the levels of MULS on one pointer, and the operands by `mulsExcluded`. -/
theorem mulsOnOnePointer : Obligations.MulsOnOnePointer := by
  unfold Obligations.MulsOnOnePointer
  intro r rd rs n s ea
  refine ⟨fun hver hok i k hi => ?_, fun i hi => ?_⟩
  · have hv : s.cfg.ver ≠ .v13 := by rcases hver with h | h <;> rw [h] <;> decide
    rw [exec_muls_of_mem hi s]
    exact ⟨fun hfir => mulsRegs_one_still k r n s hv hok (movesForward_off n s (.inl hfir)),
      mulsRegs_one_moves k r n s hv hok⟩
  · obtain ⟨k, hk⟩ : ∃ k : MulKind,
        (i, k) ∈ [(Instr.mulsUu rd n rs, MulKind.uu), (.mulsUs rd n rs, .us), (.mulsSs rd n rs, .ss)] := by
      simp only [List.mem_cons, List.not_mem_nil, or_false] at hi
      rcases hi with rfl | rfl | rfl
      · exact ⟨.uu, by simp⟩
      · exact ⟨.us, by simp⟩
      · exact ⟨.ss, by simp⟩
    rw [exec_muls_of_mem hk s]
    refine ⟨mulsRegs_refused k rd rs n s, fun hok hfree => ⟨_, mulsRegs_next k rd rs n s hok fun hon a _ hahead => ?_⟩⟩
    rcases hfree with hver | hoff
    · exact hver hahead.1
    · exact absurd ((movesForward_off n s hoff).symm.trans hon) Bool.false_ne_true

end Sys2Proof.Proofs


namespace Sys2Proof.Proofs

open Sys2Proof Sys2Proof.Machine Sys2Proof.Laws

/-! ### Accesses of memory and the register file (R96, R381) -/

/-- An operation on memory: it neither looks at the register file nor touches it. -/
structure MemoryAccess {α : Type} (f : State → α × State) : Prop where
  comm : ∀ (s : State) (g : Regs), f { s with regs := g } = ((f s).1, { (f s).2 with regs := g })
  reg : ∀ (s : State) (r : Reg), (f s).2.reg r = s.reg r
  bank : ∀ s : State, (f s).2.bank = s.bank

section Access

variable {α : Type} {f : State → α × State} (hf : MemoryAccess f)

include hf

theorem MemoryAccess.regs (s : State) : (f s).2.regs = s.regs := congrArg (fun y => y.2.regs) (hf.comm s s.regs)

/-- The write of a register of the file and the access do not meet. -/
theorem MemoryAccess.setReg (s : State) {r : Reg} (v : Word) (hsr : r ≠ .sr) (hpc : r ≠ .pc) :
    f (s.setReg r v) = ((f s).1, (f s).2.setReg r v) := by
  have hregs := hf.regs s
  have hbank := hf.bank s
  cases r with
  | sr => exact absurd rfl hsr
  | pc => exact absurd rfl hpc
  | sp | bp =>
    simp only [State.setReg, hregs]
    exact hf.comm s _
  | r1 | r2 | r3 | r4 =>
    simp only [State.setReg, hbank, hregs]
    split <;> exact hf.comm s _

end Access

theorem pairHigh_ne_pairLow (x : PairReg) : pairHigh x ≠ pairLow x := by cases x <;> decide

theorem pairLow_ne_sr (x : PairReg) : pairLow x ≠ .sr := by cases x <;> decide

theorem pairLow_ne_pc (x : PairReg) : pairLow x ≠ .pc := by cases x <;> decide

theorem pairHigh_ne_sr (x : PairReg) : pairHigh x ≠ .sr := by cases x <;> decide

theorem pairHigh_ne_pc (x : PairReg) : pairHigh x ≠ .pc := by cases x <;> decide

section PairAccess

variable {α : Type} {f : State → α × State} (hf : MemoryAccess f) (s : State) (w : Width) (m : PtrMode) (x : PairReg)

include hf

theorem MemoryAccess.setPairPtr (v : BitVec 23) : f (setPairPtr s x v) = ((f s).1, Machine.setPairPtr (f s).2 x v) := by
  simp only [Machine.setPairPtr, hf.reg, hf.setReg _ _ (pairLow_ne_sr x) (pairLow_ne_pc x),
    hf.setReg _ _ (pairHigh_ne_sr x) (pairHigh_ne_pc x)]

theorem MemoryAccess.pairPtr : pairPtr (f s).2 x = Machine.pairPtr s x := by
  simp only [Machine.pairPtr, hf.reg]

theorem MemoryAccess.pairBefore : f (pairBefore s w m x) = ((f s).1, Machine.pairBefore (f s).2 w m x) := by
  cases m with
  | preInc => exact (hf.setPairPtr s x _).trans (by rw [← hf.pairPtr s x]; rfl)
  | keep | postDec | postInc => rfl

theorem MemoryAccess.pairAfter : f (pairAfter s w m x) = ((f s).1, Machine.pairAfter (f s).2 w m x) := by
  cases m with
  | postInc | postDec => exact (hf.setPairPtr s x _).trans (by rw [← hf.pairPtr s x]; rfl)
  | keep | preInc => rfl

end PairAccess

theorem byteLoad_access (w : Width) (e : BitVec 23) : MemoryAccess fun s => byteLoad s w e := by
  cases w with
  | byte => exact ⟨fun _ _ => rfl, fun s r => loadByte_reg s e r, fun _ => rfl⟩
  | word => exact ⟨fun _ _ => rfl, fun s r => load_reg s (wordOf e) r, fun _ => rfl⟩

theorem byteStore_access (w : Width) (e : BitVec 23) (v : Word) :
    MemoryAccess fun s => (Unit.unit, byteStore s w e v) := by
  cases w with
  | byte => exact ⟨fun _ _ => rfl, fun s r => storeByte_reg s e _ r, fun _ => rfl⟩
  | word => exact ⟨fun _ _ => rfl, fun s r => storeWord_reg s (wordOf e) v r, fun _ => rfl⟩

/-! ### The 23-bit pointer of a pair (R92, R381) -/

section PairPointer

variable (s : State) (w : Width) (m : PtrMode) (x : PairReg)

theorem pairPtr_toNat : (pairPtr s x).toNat = specPair x s := by
  have hlow := (s.reg (pairLow x)).isLt
  rw [pairPtr, BitVec.extractLsb'_toNat, append_toNat_eq, specPair, Nat.shiftRight_zero]
  omega

theorem specPair_lt : specPair x s < 8388608 := pairPtr_toNat s x ▸ (pairPtr s x).isLt

theorem widthStep_toNat : (widthStep w).toNat = specStep w := by cases w <;> rfl

/-- The model's address is that of the rule. -/
theorem pairEba_eq_specPairAddr : pairEba s w m x = specPairAddr w m x s := by
  apply BitVec.eq_of_toNat_eq
  have hptr := specPair_lt s x
  unfold pairEba specPairAddr
  cases m with
  | preInc => rw [BitVec.toNat_add, pairPtr_toNat, widthStep_toNat, BitVec.toNat_ofNat, if_pos rfl]
  | keep | postDec | postInc =>
    rw [pairPtr_toNat, BitVec.toNat_ofNat, if_neg PtrMode.noConfusion, Nat.add_zero, Nat.mod_eq_of_lt hptr]

/-- The pair after a write of its pointer: the 23 bits, its other bits, and nothing else. -/
theorem setPairPtr_specPair (v : BitVec 23) : specPair x (setPairPtr s x v) = v.toNat := by
  have hv := v.isLt
  unfold specPair setPairPtr
  rw [setReg_reg_same, setReg_reg_other _ _ _ _ (pairHigh_ne_pairLow x), setReg_reg_same, append_toNat_eq,
    BitVec.extractLsb'_toNat, BitVec.extractLsb'_toNat, BitVec.extractLsb'_toNat, Nat.shiftRight_eq_div_pow,
    Nat.shiftRight_zero]
  omega

theorem setPairPtr_upper (v : BitVec 23) : ((setPairPtr s x v).reg (pairHigh x)).extractLsb' 7 9 =
    (s.reg (pairHigh x)).extractLsb' 7 9 := by
  unfold setPairPtr
  rw [setReg_reg_other _ _ _ _ (pairHigh_ne_pairLow x), setReg_reg_same]
  apply BitVec.eq_of_toNat_eq
  have hv := (v.extractLsb' 16 7).isLt
  have hhigh := ((s.reg (pairHigh x)).extractLsb' 7 9).isLt
  rw [BitVec.extractLsb'_toNat, append_toNat_eq, Nat.shiftRight_eq_div_pow]
  omega

/-- A write of the pointer touches the two registers of the pair alone. -/
theorem setPairPtr_frame (v : BitVec 23) :
    (∀ q : GReg, q ≠ .core (pairHigh x) → q ≠ .core (pairLow x) → (setPairPtr s x v).greg q = s.greg q) ∧
      (setPairPtr s x v).status = s.status ∧ (setPairPtr s x v).pc = s.pc ∧ SysSame s (setPairPtr s x v) ∧
      MemSame s (setPairPtr s x v) := by
  have core_ne {r q : Reg} (h : r ≠ q) : GReg.core r ≠ .core q := fun e => h (GReg.core.inj e)
  refine ⟨fun q h1 h2 => ?_, ?_, ?_, ?_, ?_⟩
  · exact (setGreg_greg_other _ (.core _) q _ h2).trans (setGreg_greg_other _ (.core _) q _ h1)
  · exact (setGreg_status _ (.core _) _ (core_ne (pairLow_ne_sr x))).trans
      (setGreg_status _ (.core _) _ (core_ne (pairHigh_ne_sr x)))
  · exact (setGreg_pc _ (.core _) _ (core_ne (pairLow_ne_pc x))).trans
      (setGreg_pc _ (.core _) _ (core_ne (pairHigh_ne_pc x)))
  · exact sysSame_trans (setGreg_sysSame _ (.core _) _) (setGreg_sysSame _ (.core _) _)
  · exact memSame_trans (setGreg_memSame _ (.core _) _) (setGreg_memSame _ (.core _) _)

/-- The pointer one step up, as a number modulo 2 ^ 23. -/
theorem specPair_up : (specPair x (setPairPtr s x (pairPtr s x + widthStep w)) : Int) =
    ((specPair x s : Int) + specStep w) % 8388608 := by
  rw [setPairPtr_specPair, BitVec.toNat_add, pairPtr_toNat, widthStep_toNat]
  omega

theorem specPair_down : (specPair x (setPairPtr s x (pairPtr s x - widthStep w)) : Int) =
    ((specPair x s : Int) - specStep w) % 8388608 := by
  have hstep : specStep w ≤ 2 := by cases w <;> decide
  rw [setPairPtr_specPair, BitVec.toNat_sub, pairPtr_toNat, widthStep_toNat]
  omega

/-- The updates before and after the access together are the step of @. -/
theorem pairUpdates_moved : PairMoved w m x s (pairAfter (pairBefore s w m x) w m x) := by
  cases m with
  | keep => exact ⟨rfl, rfl, fun _ _ _ => rfl, rfl, rfl, sysSame_refl s, memSame_refl s⟩
  | postInc | preInc => exact ⟨specPair_up s w x, setPairPtr_upper s x _, setPairPtr_frame s x _⟩
  | postDec => exact ⟨specPair_down s w x, setPairPtr_upper s x _, setPairPtr_frame s x _⟩

end PairPointer

/-! ### The byte-mode accesses (R382 to R391) -/

/-- Pointer updates before and after an access do not meet it, and together they do what `moved` says. -/
structure UpdatesAround (before after : State → State) (moved : State → State → Prop) : Prop where
  load : ∀ (s : State) (w : Width) (e : BitVec 23),
    byteLoad (before s) w e = ((byteLoad s w e).1, before (byteLoad s w e).2)
  store : ∀ (s : State) (w : Width) (e : BitVec 23) (v : Word),
    after (byteStore (before s) w e v) = byteStore (after (before s)) w e v
  moved : ∀ s : State, moved s (after (before s))
  mem : ∀ s : State, (after (before s)).mem = s.mem

theorem updatesAround_pair (w : Width) (m : PtrMode) (x : PairReg) :
    UpdatesAround (fun t => pairBefore t w m x) (fun t => pairAfter t w m x) (PairMoved w m x) where
  load s w' e := (byteLoad_access w' e).pairBefore s w m x
  store s w' e v := (congrArg Prod.snd ((byteStore_access w' e v).pairAfter (pairBefore s w m x) w m x)).symm
  moved s := pairUpdates_moved s w m x
  mem s := by cases m <;> simp [pairAfter, pairBefore, setPairPtr]

theorem updatesAround_none : UpdatesAround id id fun t u => u = t where
  load _ _ _ := rfl
  store _ _ _ _ := rfl
  moved _ := rfl
  mem _ := rfl

theorem misaligned_eq_false_iff (w : Width) (e : BitVec 23) :
    misaligned w e = false ↔ w = .byte ∨ e.getLsbD 0 = false := by
  cases w <;> simp [misaligned]

/-- The word that holds the byte is loaded, and the byte or all of it is the value. -/
theorem byteLoad_eq (s : State) (w : Width) (e : BitVec 23) : byteLoad s w e =
    (specByteValue w e (s.load (BitVec.ofNat 22 (e.toNat / 2))).1, (s.load (BitVec.ofNat 22 (e.toNat / 2))).2) := by
  rw [← wordOf_eq_ofNat]
  cases w with
  | word => rfl
  | byte =>
    refine Prod.ext (BitVec.eq_of_toNat_eq ?_) rfl
    show ((s.dmaPoint.readByte e).setWidth 16).toNat = (specByteValue .byte e (s.dmaPoint.readWord (wordOf e))).toNat
    have hword := (s.dmaPoint.readWord (wordOf e)).isLt
    unfold State.readByte specByteValue
    cases e.getLsbD 0 <;>
      simp only [if_true, if_false, Bool.false_eq_true, BitVec.toNat_setWidth, BitVec.extractLsb'_toNat,
        BitVec.toNat_ofNat, Nat.shiftRight_eq_div_pow] <;>
      omega

section Done

variable {before after : State → State} {moved : State → State → Prop} (hu : UpdatesAround before after moved)
  {w : Width} {e : BitVec 23}

include hu

theorem byteModeLoad_done (hal : w = .byte ∨ e.getLsbD 0 = false) (rd : Reg) (s : State) :
    ByteLoadDone (byteModeLoad w e before after rd s) w e rd moved s := by
  have hodd : misaligned w e = false := (misaligned_eq_false_iff w e).2 hal
  have hrun : byteModeLoad w e before after rd s =
      .next ((after (byteLoad (before s) w e).2).aluWrite .load rd (byteLoad (before s) w e).1
        (byteLoad (before s) w e).1) := if_neg (by rw [hodd]; exact Bool.false_ne_true)
  rw [hrun, hu.load, byteLoad_eq]
  exact ⟨_, hu.moved _, _, rfl, aluWrite_effect .load rd _ _ _⟩

theorem byteModeStore_done (hal : w = .byte ∨ e.getLsbD 0 = false) (v : Word) (s : State)
    (hm : Memory.wf s.mem = true) : ByteStoreDone (byteModeStore w e before after v s) w e v moved s := by
  have hodd : misaligned w e = false := (misaligned_eq_false_iff w e).2 hal
  have hrun : byteModeStore w e before after v s = .next (after (byteStore (before s) w e v)) :=
    if_neg (by rw [hodd]; exact Bool.false_ne_true)
  have hm1 : Memory.wf (after (before s)).mem = true := by rw [hu.mem]; exact hm
  have hmoved := hu.moved s
  rw [hrun, hu.store]
  generalize after (before s) = s1 at hm1 hmoved ⊢
  cases w with
  | byte =>
    have hlow : v.extractLsb' 0 8 = BitVec.ofNat 8 v.toNat := BitVec.eq_of_toNat_eq (by
      rw [BitVec.extractLsb'_toNat, BitVec.toNat_ofNat, Nat.shiftRight_zero])
    refine ⟨s1, s1.storeByte e (v.extractLsb' 0 8), hmoved, rfl, rfl, rfl, fun q _ _ => storeByte_greg s1 e _ q,
      ⟨⟨rfl, rfl, rfl, rfl, rfl, rfl, rfl, rfl, rfl⟩, rfl, rfl⟩, ?_⟩
    rw [hlow]
    exact putByte_stored s1.dmaPoint e _ (dmaPoint_wf s1 hm1)
  | word =>
    refine ⟨s1, s1.storeWord (wordOf e) v, hmoved, rfl, rfl, rfl, fun q _ _ => storeWord_greg s1 _ v q,
      storeWord_sysSame s1 _ v, ?_⟩
    rw [wordOf_eq_ofNat]
    exact storeWord_stored s1 _ v hm1

end Done

/-! ### AdE (R453, D18, D23) -/

/-- The state whose return state AdE saves: FR.AdE is set first. -/
def markedAde (s : State) : State := { s with flags := { s.flags with top := true } }

/-- AdE ends as every entry that saves PC and SR alone. -/
theorem enter_ade_eq (s : State) : s.enter .ade =
    throughVector 5#4 (markedAde s).pushReturn.flags (.brk :: (markedAde s).pushReturn.svc) (markedAde s).pushReturn :=
  rfl

/-- The entry of AdE saves the return state and goes through the vector of BREAK. -/
theorem enter_ade_done (s : State) (hm : Memory.wf s.mem = true) : AdeDone (.next (s.enter .ade)) s := by
  have hcore := pushReturn_core (markedAde s)
  have hstatus := pushReturn_status (markedAde s)
  have hlater := pushReturn_laterOn (markedAde s)
  have hsaved := pushReturn_saved (markedAde s) hm
  rw [enter_ade_eq]
  generalize (markedAde s).pushReturn = u at hcore hstatus hlater hsaved ⊢
  obtain ⟨⟨hcfg, hpins, hfl, hmds, hsvc, hdmack, hhold, hfree, hbank⟩, hsb⟩ := hcore
  refine ⟨_, rfl, ?_, atVector_congr hcfg (throughVector_atVector _ _ _ u), ?_, hfl, ?_, hsb, hmds, hcfg, hpins, hdmack,
    hhold, hfree, hbank⟩
  · exact returnStateSaved_later hsaved hlater (throughVector_readWord _ _ _ u) (throughVector_memSameBarDma _ _ _ u)
      (throughVector_regsSame _ _ _ u rfl) rfl
  · have hflags : FlagsAndDsSame u (throughVector 5#4 u.flags (.brk :: u.svc) u) := ⟨rfl, rfl, rfl, rfl, rfl⟩
    unfold FlagsAndDsSame at hflags ⊢
    rwa [hstatus] at hflags
  · exact congrArg (Level.brk :: ·) hsvc

section Odd

variable {w : Width} {e : BitVec 23} {before after : State → State} {s : State} (hm : Memory.wf s.mem = true)
  (hodd : ¬ (w = .byte ∨ e.getLsbD 0 = false))

include hm hodd

theorem byteModeLoad_ade (rd : Reg) : AdeDone (byteModeLoad w e before after rd s) s := by
  have hmis : misaligned w e = true := by
    rwa [← misaligned_eq_false_iff, Bool.not_eq_false] at hodd
  rw [byteModeLoad, if_pos hmis]
  exact enter_ade_done s hm

theorem byteModeStore_ade (v : Word) : AdeDone (byteModeStore w e before after v s) s := by
  have hmis : misaligned w e = true := by
    rwa [← misaligned_eq_false_iff, Bool.not_eq_false] at hodd
  rw [byteModeStore, if_pos hmis]
  exact enter_ade_done s hm

end Odd

/-! ### The byte modes of 1.3 -/

theorem pairConflict_eq_false_iff (m : PtrMode) (x : PairReg) (rd : Reg) :
    pairConflict m x rd = false ↔ m = .keep ∨ (rd ≠ pairLow x ∧ rd ≠ pairHigh x) := by
  simp [pairConflict, or_iff_not_imp_left]

/-- Settles O60: every byte mode is the one load or the one store, at its address and with its pointer updates. -/
theorem byteModeAccesses : Obligations.ByteModeAccesses := by
  unfold Obligations.ByteModeAccesses
  intro w m x y rd im im6 s hm e eI eBp eR aligned apart still
  have hpair := updatesAround_pair w m x
  have hea : pairEba s w m x = e := pairEba_eq_specPairAddr s w m x
  have allowed {o : Out} (h : apart) : (if pairConflict m x rd then .refused .pointerConflict else o) = o := by
    rw [(pairConflict_eq_false_iff m x rd).2 h]
    rfl
  have refused {o : Out} (h : ¬ apart) :
      (if pairConflict m x rd then .refused .pointerConflict else o) = .refused .pointerConflict := by
    have hconflict : pairConflict m x rd = true := by
      rwa [← Bool.not_eq_false, pairConflict_eq_false_iff]
    rw [hconflict]
    rfl
  refine ⟨fun hapart => ?_, fun hpart i hi => ?_, ?_, ?_, fun h => byteModeStore_done hpair h im s hm, ?_,
    fun h => ⟨byteModeLoad_done updatesAround_none h _ s,
      byteModeStore_done updatesAround_none h _ s hm⟩, fun h => ⟨byteModeLoad_ade hm h _, byteModeStore_ade hm h _⟩,
    fun h => byteModeStore_done updatesAround_none h im s hm, fun h => byteModeStore_ade hm h im⟩
  · simp only [exec13, exec13LoadInd, exec13StoreInd, exec13LoadIdx, exec13StoreIdx, allowed hapart, hea]
    exact ⟨fun h => ⟨byteModeLoad_done hpair h rd s, byteModeStore_done hpair h _ s hm⟩,
      fun h => ⟨byteModeLoad_done hpair h rd s, byteModeStore_done hpair h _ s hm⟩,
      fun h => ⟨byteModeLoad_ade hm h rd, byteModeStore_ade hm h _⟩,
      fun h => ⟨byteModeLoad_ade hm h rd, byteModeStore_ade hm h _⟩⟩
  · simp only [List.mem_cons, List.not_mem_nil, or_false] at hi
    rcases hi with rfl | rfl | rfl | rfl <;> exact refused hpart
  · intro h
    simp only [exec13, exec13StoreIndImm, hea]
    exact byteModeStore_done hpair h im s hm
  · intro h
    simp only [exec13, exec13StoreIndImm, hea]
    exact byteModeStore_ade hm h im
  · intro h
    simp only [exec13, exec13StoreIdxImm]
    exact byteModeStore_ade hm h im

end Sys2Proof.Proofs
